-- ==== Sys2Proof/Word.lean ====
section
/-! DEFINITION. The fixed-width words of the block: the bus byte and the stimulus word (R8, R111). -/
namespace Sys2Proof

/-- A register's or a bus transaction's byte (R8). -/
abbrev Byte := BitVec 8

/-- The stimulus word `STIM[28:0]` that numbers the stimuli (R111). -/
abbrev StimWord := BitVec 29

/-- A bus address (R80). -/
abbrev BusAddr := BitVec 16

end Sys2Proof
end

