-- ==== Sys2Proof/Config.lean ====
section
/-! DEFINITION. The implementation parameters (R7): the configuration record `Cfg`, its part `Literals` of the numbers D0 prints
and the rest, and the OPEN parameters of the machine at hand. The values are in Machine/Constants.lean. -/
namespace Sys2Proof

/-- The two pulse channels (R28). -/
inductive PulseId where
  | one | two
  deriving DecidableEq, Repr

/-- What a read of an unreadable offset returns (R7, R88, D20). -/
inductive OpenBusMode where
  | perOffset    -- the byte last written to that offset
  | singleLatch  -- the byte last written to any offset
  deriving DecidableEq, Repr, Inhabited

/-- The playback rates of R7's `F_OUT`. -/
inductive OutRate where
  | hz44100 | hz48000
  deriving DecidableEq, Repr, Inhabited

/-- A playback rate in samples a second. -/
def OutRate.hz : OutRate → Rat
  | .hz44100 => 44100
  | .hz48000 => 48000

/-- `APU_DOMAIN` (R7, R382): which timers tick once per APU cycle (`true`) rather than on every CLOCK (`false`). The
triangle's ticks on every CLOCK in any case. -/
structure ApuDomain where
  pulse : Bool
  noise : Bool
  dmc   : Bool
  deriving DecidableEq, Repr, Inhabited

/-- The literals of R7 whose ground is the source document (R2, A12): configuration, with D0's values. -/
structure Literals where
  /-- `STEPS4`, `STEPS5` (R150): the step cycles of the two schedules. -/
  steps4 : List Nat
  steps5 : List Nat
  /-- `PERIOD4` (R150). -/
  period4 : Nat
  /-- `HALF4`, `HALF5` (R153): the numbers, counted from 1, of the steps that are half-frames. -/
  half4 : List Nat
  half5 : List Nat
  /-- `FS_DELAY_ODD`, `FS_DELAY_EVEN` (R156): by the parity of the issue cycle. -/
  fsDelayOdd  : Nat
  fsDelayEven : Nat
  /-- `TRI_SEQ` (R241). -/
  triSeq : Vector (BitVec 4) 32
  /-- `PULSE_NUM`, `PULSE_DEN_K`, `PULSE_DEN_C` (R321). -/
  pulseNum  : Rat
  pulseDenK : Rat
  pulseDenC : Rat
  /-- `TND_NUM`, `TND_DEN_C`, `TND_TRI`, `TND_NOISE`, `TND_DMC` (R322). -/
  tndNum   : Rat
  tndDenC  : Rat
  tndTri   : Rat
  tndNoise : Rat
  tndDmc   : Rat
  /-- `DMC_ADDR_BASE`, `DMC_ADDR_SCALE`, `DMC_LEN_SCALE`, `DMC_LEN_BIAS` (R127). -/
  dmcAddrBase  : Nat
  dmcAddrScale : Nat
  dmcLenScale  : Nat
  dmcLenBias   : Nat
  /-- `DMC_WRAP_FROM`, `DMC_WRAP_TO` (R294). -/
  dmcWrapFrom : BitVec 16
  dmcWrapTo   : BitVec 16
  /-- `SWEEP_MUTE_LOW`, `SWEEP_MUTE_HIGH` (R194). -/
  sweepMuteLow  : Nat
  sweepMuteHigh : Nat
  /-- `TRI_MUTE_LOW` (R249). -/
  triMuteLow : Nat
  /-- `RATIO_MIN`, `RATIO_MAX` (R335). -/
  ratioMin : Rat
  ratioMax : Rat
  deriving DecidableEq, Repr

/-- The configuration record (R7): the literals, and what the spec decides or leaves open. -/
structure Cfg extends Literals where
  /-- `OPEN_BUS_MODE` (D20). -/
  openBusMode : OpenBusMode
  /-- `APU_PHASE` (D7): the parity of the CLOCKs on which the APU cycle ticks. -/
  apuPhase : Fin 2
  /-- `APU_DOMAIN` (D7). -/
  apuDomain : ApuDomain
  /-- `PERIOD5` (D5). -/
  period5 : Nat
  /-- `DUTY_TABLE` (R211, D11): a pattern's leftmost bit is position 0. -/
  dutyTable : Vector (BitVec 8) 4
  /-- `LENGTH_TABLE` (R217, D12). -/
  lengthTable : Vector (BitVec 8) 32
  /-- `NOISE_PERIOD` (R262, D13). -/
  noisePeriod : Vector (BitVec 12) 16
  /-- `DMC_RATE` (R282, D14). -/
  dmcRate : Vector (BitVec 9) 16
  /-- `F_IN` (D32): the rate of CLOCKs, OPEN. -/
  fIn : Rat
  /-- `F_OUT`: the playback rate. -/
  fOut : OutRate
  /-- `RS_OUT_CAP` (D34), OPEN. -/
  rsOutCap : Nat
  /-- `RB_CAP` (D34), OPEN. -/
  rbCap : Nat
  /-- `REPORT_EVERY` (D34), OPEN. -/
  reportEvery : Nat
  deriving DecidableEq, Repr

/-- `BASE_STEP = F_IN / F_OUT` (R7, R33). -/
def Cfg.baseStep (cfg : Cfg) : Rat := cfg.fIn / cfg.fOut.hz

namespace Config

/-- The OPEN parameters of the machine at hand (R7, D32, D34): no body, so that nothing is known of them. `F_IN` is
`(fInNum + 1) / (fInDen + 1)`, any positive rational; each size is one more than its constant, any positive natural. Log 4. -/
opaque fInNum : Nat
opaque fInDen : Nat
opaque fOut : OutRate
opaque rsOutCapLessOne : Nat
opaque rbCapLessOne : Nat
opaque reportEveryLessOne : Nat

end Config
end Sys2Proof
end

