-- ==== Sys2Proof/Machine/Mixer.lean ====
section
/-! DEFINITION. The non-linear mixer (R320 to R325), in exact rationals. -/
namespace Sys2Proof.Machine

/-- `PULSE_TABLE[i]` (R321). -/
def pulseTable (cfg : Cfg) (i : Nat) : Rat :=
  if i = 0 then 0 else cfg.pulseNum / (cfg.pulseDenK / (i : Rat) + cfg.pulseDenC)

/-- `tndSum` (R322). -/
def tndSum (cfg : Cfg) (tri noise : BitVec 4) (dmc : BitVec 7) : Rat :=
  (tri.toNat : Rat) / cfg.tndTri + (noise.toNat : Rat) / cfg.tndNoise + (dmc.toNat : Rat) / cfg.tndDmc

/-- `tndOut` (R322): the guard avoids a division by zero. -/
def tndOut (cfg : Cfg) (tri noise : BitVec 4) (dmc : BitVec 7) : Rat :=
  if tndSum cfg tri noise dmc = 0 then 0 else cfg.tndNum / (1 / tndSum cfg tri noise dmc + cfg.tndDenC)

/-- `mix` (R323). -/
def mix (cfg : Cfg) (p1 p2 tri noise : BitVec 4) (dmc : BitVec 7) : Rat :=
  (pulseTable cfg (p1.toNat + p2.toNat) + tndOut cfg tri noise dmc) * 2 - 1

end Sys2Proof.Machine
end

