-- ==== Sys2Proof/Syntax.lean ====
section
/-! DEFINITION. The stimuli (R110): one constructor per row of the opcode table, what travels beside the word, the
word's fields, and the agents that issue the stimuli. -/
namespace Sys2Proof

/-- The stimuli of the block, one per row of R110's list: a write carries the data byte, `DMA_LOAD` the delivered byte,
and the three payload ports their payload (R140). The comment after each names its rule. -/
inductive Instr where
  | w4000 (v : Byte)  -- R212: pulse 1, offset 0
  | w4001 (v : Byte)  -- R213: pulse 1, offset 1
  | w4002 (v : Byte)  -- R214: pulse 1, offset 2
  | w4003 (v : Byte)  -- R215: pulse 1, offset 3
  | w4004 (v : Byte)  -- R212: pulse 2, offset 0
  | w4005 (v : Byte)  -- R213: pulse 2, offset 1
  | w4006 (v : Byte)  -- R214: pulse 2, offset 2
  | w4007 (v : Byte)  -- R215: pulse 2, offset 3
  | w4008 (v : Byte)  -- R242: triangle control
  | w4009 (v : Byte)  -- R245: unused
  | w400A (v : Byte)  -- R243: triangle timer low
  | w400B (v : Byte)  -- R244: triangle timer high
  | w400C (v : Byte)  -- R261: noise, offset 0
  | w400D (v : Byte)  -- R265: unused
  | w400E (v : Byte)  -- R263: noise, offset 2
  | w400F (v : Byte)  -- R264: noise, offset 3
  | w4010 (v : Byte)  -- R281: DMC control
  | w4011 (v : Byte)  -- R283: DMC direct load
  | w4012 (v : Byte)  -- R284: DMC sample address
  | w4013 (v : Byte)  -- R285: DMC sample length
  | w4014 (v : Byte)  -- R376: not listed by D0
  | w4015 (v : Byte)  -- R371: status
  | w4016 (v : Byte)  -- R376: not listed by D0
  | w4017 (v : Byte)  -- R161: frame sequencer control
  | rd4000  -- R88
  | rd4001  -- R88
  | rd4002  -- R88
  | rd4003  -- R88
  | rd4004  -- R88
  | rd4005  -- R88
  | rd4006  -- R88
  | rd4007  -- R88
  | rd4008  -- R88
  | rd4009  -- R88
  | rd400A  -- R88
  | rd400B  -- R88
  | rd400C  -- R88
  | rd400D  -- R88
  | rd400E  -- R88
  | rd400F  -- R88
  | rd4010  -- R88
  | rd4011  -- R88
  | rd4012  -- R88
  | rd4013  -- R88
  | rd4014  -- R88
  | rd4015  -- R375
  | rd4016  -- R88
  | rd4017  -- R88
  | clock  -- R378
  | reset  -- R386
  | dmaReq  -- R292
  | dmaLoad (b : Byte)  -- R294
  | sample  -- R384
  | irq  -- R385
  | setRate (r : Rat)  -- R335
  | rsPull  -- R336
  | rbWrite (samples : List Rat)  -- R351
  | rbRead (count : Int)  -- R352
  deriving DecidableEq, Repr

/-- What travels beside the stimulus word (R111, R140). -/
inductive Payload where
  | none
  | ratio (r : Rat)
  | samples (l : List Rat)
  | count (n : Int)
  deriving DecidableEq, Repr

/-- A stimulus as an agent issues it: the word of R111 and the payload beside it. -/
structure Stimulus where
  word    : StimWord
  payload : Payload
  deriving DecidableEq, Repr

/-- The fields of the stimulus word (R111). -/
structure Fields where
  port : BitVec 4
  rw   : BitVec 1
  addr : BusAddr
  data : Byte
  deriving DecidableEq, Repr

/-- The agents (R5). -/
inductive Agent where
  | clk | bus | dma | glue | rate | rend
  deriving DecidableEq, Repr

/-- The two execution contexts (R5, R95). -/
inductive Context where
  | emulation | render
  deriving DecidableEq, Repr

/-- The agent that issues a stimulus (R5). -/
def Instr.agent : Instr → Agent
  | .w4000 _ | .w4001 _ | .w4002 _ | .w4003 _ | .w4004 _ | .w4005 _ | .w4006 _ | .w4007 _ | .w4008 _ | .w4009 _ |
    .w400A _ | .w400B _ | .w400C _ | .w400D _ | .w400E _ | .w400F _ | .w4010 _ | .w4011 _ | .w4012 _ | .w4013 _ |
    .w4014 _ | .w4015 _ | .w4016 _ | .w4017 _ => .bus
  | .rd4000 | .rd4001 | .rd4002 | .rd4003 | .rd4004 | .rd4005 | .rd4006 | .rd4007 | .rd4008 | .rd4009 | .rd400A |
    .rd400B | .rd400C | .rd400D | .rd400E | .rd400F | .rd4010 | .rd4011 | .rd4012 | .rd4013 | .rd4014 | .rd4015 |
    .rd4016 | .rd4017 => .bus
  | .clock => .clk
  | .dmaReq | .dmaLoad _ => .dma
  | .reset | .sample | .irq | .rsPull | .rbWrite _ => .glue
  | .setRate _ => .rate
  | .rbRead _ => .rend

/-- The context an agent belongs to (R5). -/
def Agent.context : Agent → Context
  | .clk | .bus | .dma | .glue | .rate => .emulation
  | .rend => .render

end Sys2Proof
end

