-- ==== Sys2Proof/WellFormed.lean ====
section
/-! DEFINITION. When the fields of a stimulus word, with the payload beside it, spell a stimulus (R111, R136, R140). Every
term of `Instr` is well formed: every byte, rational, list and count is a legal operand (R17, R140), so the checks stand
on the fields. -/
namespace Sys2Proof

/-- Port codes 11 to 15 are unassigned (R111, R136). -/
def Fields.portAssigned (f : Fields) : Bool := f.port.toNat ≤ 10

/-- A bus transaction names one of the 24 offsets (R80, R83, R111). -/
def Fields.addrInWindow (f : Fields) : Bool :=
  f.port != 0 || (decide (0x4000 ≤ f.addr.toNat) && decide (f.addr.toNat ≤ 0x4017))

/-- `rw` and `addr` are 0 on a port other than `BUS` (R111, R136). -/
def Fields.portFieldsZero (f : Fields) : Bool := f.port == 0 || (f.rw == 0 && f.addr == 0)

/-- `data` is 0 unless the stimulus is a bus write or `DMA_LOAD` (R111). -/
def Fields.dataZero (f : Fields) : Bool :=
  (f.port == 0 && f.rw == 1) || f.port == 4 || f.data == 0

/-- The payload is of the kind the port takes: a ratio for `SET_RATE`, samples for `RB_WRITE`, a count for `RB_READ`, none
for any other (R111, R140). -/
def Fields.payloadFits (f : Fields) : Payload → Bool
  | .none => f.port != 7 && f.port != 9 && f.port != 10
  | .ratio _ => f.port == 7
  | .samples _ => f.port == 9
  | .count _ => f.port == 10

/-- The fields and the payload spell a stimulus. -/
def Fields.wellFormed (f : Fields) (p : Payload) : Bool :=
  f.portAssigned && f.addrInWindow && f.portFieldsZero && f.dataZero && f.payloadFits p

end Sys2Proof
end

