-- ==== Sys2Proof/Decode.lean ====
section
/-! DEFINITION. The decoder of the stimulus word (R111, R112, R136) and its encoder. -/
namespace Sys2Proof

/-- Why a word, with its payload, spells no stimulus (R136). -/
inductive DecodeError where
  /-- Port codes 11 to 15 (R111). -/
  | unassignedPort (port : BitVec 4)
  /-- A bus address outside `$4000` to `$4017` (R83). -/
  | addressOutsideWindow (addr : BusAddr)
  /-- A field the stimulus does not use is not 0 (R111). -/
  | unusedFieldNotZero
  /-- The payload is not of the kind the port takes (R111, R140). -/
  | payloadMismatch
  deriving DecidableEq, Repr

/-- The fields of a stimulus word: `port` in bits 28:25, `rw` in bit 24, `addr` in bits 23:8, `data` in bits 7:0 (R111). -/
def fieldsOf (w : StimWord) : Fields where
  port := w.extractLsb' 25 4
  rw := w.extractLsb' 24 1
  addr := w.extractLsb' 8 16
  data := w.extractLsb' 0 8

/-- A bus write of the byte `v` (R81, R112). -/
def decodeWrite (addr : BusAddr) (v : Byte) : Except DecodeError Instr :=
  match addr.toNat with
  | 0x4000 => .ok (.w4000 v)
  | 0x4001 => .ok (.w4001 v)
  | 0x4002 => .ok (.w4002 v)
  | 0x4003 => .ok (.w4003 v)
  | 0x4004 => .ok (.w4004 v)
  | 0x4005 => .ok (.w4005 v)
  | 0x4006 => .ok (.w4006 v)
  | 0x4007 => .ok (.w4007 v)
  | 0x4008 => .ok (.w4008 v)
  | 0x4009 => .ok (.w4009 v)
  | 0x400A => .ok (.w400A v)
  | 0x400B => .ok (.w400B v)
  | 0x400C => .ok (.w400C v)
  | 0x400D => .ok (.w400D v)
  | 0x400E => .ok (.w400E v)
  | 0x400F => .ok (.w400F v)
  | 0x4010 => .ok (.w4010 v)
  | 0x4011 => .ok (.w4011 v)
  | 0x4012 => .ok (.w4012 v)
  | 0x4013 => .ok (.w4013 v)
  | 0x4014 => .ok (.w4014 v)
  | 0x4015 => .ok (.w4015 v)
  | 0x4016 => .ok (.w4016 v)
  | 0x4017 => .ok (.w4017 v)
  | _ => .error (.addressOutsideWindow addr)

/-- A bus read (R81). -/
def decodeRead (addr : BusAddr) : Except DecodeError Instr :=
  match addr.toNat with
  | 0x4000 => .ok .rd4000
  | 0x4001 => .ok .rd4001
  | 0x4002 => .ok .rd4002
  | 0x4003 => .ok .rd4003
  | 0x4004 => .ok .rd4004
  | 0x4005 => .ok .rd4005
  | 0x4006 => .ok .rd4006
  | 0x4007 => .ok .rd4007
  | 0x4008 => .ok .rd4008
  | 0x4009 => .ok .rd4009
  | 0x400A => .ok .rd400A
  | 0x400B => .ok .rd400B
  | 0x400C => .ok .rd400C
  | 0x400D => .ok .rd400D
  | 0x400E => .ok .rd400E
  | 0x400F => .ok .rd400F
  | 0x4010 => .ok .rd4010
  | 0x4011 => .ok .rd4011
  | 0x4012 => .ok .rd4012
  | 0x4013 => .ok .rd4013
  | 0x4014 => .ok .rd4014
  | 0x4015 => .ok .rd4015
  | 0x4016 => .ok .rd4016
  | 0x4017 => .ok .rd4017
  | _ => .error (.addressOutsideWindow addr)

/-- A bus transaction (R82): `data` is 0 on a read. -/
def decodeBus (f : Fields) : Payload → Except DecodeError Instr
  | .none =>
    if f.rw = 1 then decodeWrite f.addr f.data
    else if f.data = 0 then decodeRead f.addr
    else .error .unusedFieldNotZero
  | _ => .error .payloadMismatch

/-- A port stimulus that takes nothing (R110). -/
def decodePlain (f : Fields) (i : Instr) : Payload → Except DecodeError Instr
  | .none => if f.rw = 0 ∧ f.addr = 0 ∧ f.data = 0 then .ok i else .error .unusedFieldNotZero
  | _ => .error .payloadMismatch

/-- `DMA_LOAD`, whose byte is in the word (R111). -/
def decodeDmaLoad (f : Fields) : Payload → Except DecodeError Instr
  | .none => if f.rw = 0 ∧ f.addr = 0 then .ok (.dmaLoad f.data) else .error .unusedFieldNotZero
  | _ => .error .payloadMismatch

/-- `SET_RATE`, `RB_WRITE` and `RB_READ`, whose operand is the payload (R140). -/
def decodeSetRate (f : Fields) : Payload → Except DecodeError Instr
  | .ratio r => decodePlain f (.setRate r) .none
  | _ => .error .payloadMismatch

def decodeRbWrite (f : Fields) : Payload → Except DecodeError Instr
  | .samples l => decodePlain f (.rbWrite l) .none
  | _ => .error .payloadMismatch

def decodeRbRead (f : Fields) : Payload → Except DecodeError Instr
  | .count n => decodePlain f (.rbRead n) .none
  | _ => .error .payloadMismatch

/-- The stimulus that the fields and the payload spell, by port code (R111). -/
def decodeFields (f : Fields) (p : Payload) : Except DecodeError Instr :=
  match f.port.toNat with
  | 0 => decodeBus f p
  | 1 => decodePlain f .clock p
  | 2 => decodePlain f .reset p
  | 3 => decodePlain f .dmaReq p
  | 4 => decodeDmaLoad f p
  | 5 => decodePlain f .sample p
  | 6 => decodePlain f .irq p
  | 7 => decodeSetRate f p
  | 8 => decodePlain f .rsPull p
  | 9 => decodeRbWrite f p
  | 10 => decodeRbRead f p
  | _ => .error (.unassignedPort f.port)

/-- The stimulus that a word with its payload spells, or the reason why it spells none (R111, R136). -/
def decode (st : Stimulus) : Except DecodeError Instr := decodeFields (fieldsOf st.word) st.payload

/-- `port ‖ rw ‖ addr ‖ data` (R111). -/
def pack (f : Fields) : StimWord := f.port ++ f.rw ++ f.addr ++ f.data

/-- The word of a bus write, `0x1000000 + addr * 0x100 + v` (R138). -/
def busWriteStimulus (addr : BusAddr) (v : Byte) : Stimulus := ⟨pack ⟨0, 1, addr, v⟩, .none⟩

/-- The word of a bus read, `addr * 0x100` (R138). -/
def busReadStimulus (addr : BusAddr) : Stimulus := ⟨pack ⟨0, 0, addr, 0⟩, .none⟩

/-- The word of a port stimulus, with its data byte and its payload (R138, R140). -/
def portStimulus (port : BitVec 4) (data : Byte) (p : Payload) : Stimulus := ⟨pack ⟨port, 0, 0, data⟩, p⟩

/-- The stimulus that spells an instruction (R111, R138). -/
def encode : Instr → Stimulus
  | .w4000 v => busWriteStimulus 0x4000 v
  | .w4001 v => busWriteStimulus 0x4001 v
  | .w4002 v => busWriteStimulus 0x4002 v
  | .w4003 v => busWriteStimulus 0x4003 v
  | .w4004 v => busWriteStimulus 0x4004 v
  | .w4005 v => busWriteStimulus 0x4005 v
  | .w4006 v => busWriteStimulus 0x4006 v
  | .w4007 v => busWriteStimulus 0x4007 v
  | .w4008 v => busWriteStimulus 0x4008 v
  | .w4009 v => busWriteStimulus 0x4009 v
  | .w400A v => busWriteStimulus 0x400A v
  | .w400B v => busWriteStimulus 0x400B v
  | .w400C v => busWriteStimulus 0x400C v
  | .w400D v => busWriteStimulus 0x400D v
  | .w400E v => busWriteStimulus 0x400E v
  | .w400F v => busWriteStimulus 0x400F v
  | .w4010 v => busWriteStimulus 0x4010 v
  | .w4011 v => busWriteStimulus 0x4011 v
  | .w4012 v => busWriteStimulus 0x4012 v
  | .w4013 v => busWriteStimulus 0x4013 v
  | .w4014 v => busWriteStimulus 0x4014 v
  | .w4015 v => busWriteStimulus 0x4015 v
  | .w4016 v => busWriteStimulus 0x4016 v
  | .w4017 v => busWriteStimulus 0x4017 v
  | .rd4000 => busReadStimulus 0x4000
  | .rd4001 => busReadStimulus 0x4001
  | .rd4002 => busReadStimulus 0x4002
  | .rd4003 => busReadStimulus 0x4003
  | .rd4004 => busReadStimulus 0x4004
  | .rd4005 => busReadStimulus 0x4005
  | .rd4006 => busReadStimulus 0x4006
  | .rd4007 => busReadStimulus 0x4007
  | .rd4008 => busReadStimulus 0x4008
  | .rd4009 => busReadStimulus 0x4009
  | .rd400A => busReadStimulus 0x400A
  | .rd400B => busReadStimulus 0x400B
  | .rd400C => busReadStimulus 0x400C
  | .rd400D => busReadStimulus 0x400D
  | .rd400E => busReadStimulus 0x400E
  | .rd400F => busReadStimulus 0x400F
  | .rd4010 => busReadStimulus 0x4010
  | .rd4011 => busReadStimulus 0x4011
  | .rd4012 => busReadStimulus 0x4012
  | .rd4013 => busReadStimulus 0x4013
  | .rd4014 => busReadStimulus 0x4014
  | .rd4015 => busReadStimulus 0x4015
  | .rd4016 => busReadStimulus 0x4016
  | .rd4017 => busReadStimulus 0x4017
  | .clock => portStimulus 1 0 .none
  | .reset => portStimulus 2 0 .none
  | .dmaReq => portStimulus 3 0 .none
  | .dmaLoad b => portStimulus 4 b .none
  | .sample => portStimulus 5 0 .none
  | .irq => portStimulus 6 0 .none
  | .setRate r => portStimulus 7 0 (.ratio r)
  | .rsPull => portStimulus 8 0 .none
  | .rbWrite l => portStimulus 9 0 (.samples l)
  | .rbRead n => portStimulus 10 0 (.count n)

/-- The payload of zeros that a word alone stands for: a ratio 0, no samples, a count 0. -/
def zeroPayload (w : StimWord) : Payload :=
  match (fieldsOf w).port.toNat with
  | 7 => .ratio 0
  | 9 => .samples []
  | 10 => .count 0
  | _ => .none

/-- The stimulus of a row's bits `w`, of which `nbits` are given: the bits above them are 0, and the payload is one of zeros.
A number that is no 29-bit word spells no stimulus, and stands as the word of unassigned port 15 (R136). -/
def tableStimulus (nbits w : Nat) : Stimulus :=
  let n := w % 2 ^ nbits
  let word : StimWord := if n < 2 ^ 29 then BitVec.ofNat 29 n else BitVec.allOnes 29
  ⟨word, zeroPayload word⟩

/-- What the decoder reads from an instruction whose bits are `w`, numbered as the opcode table numbers them. -/
def decodeTableWord (nbits w : Nat) : Option Instr :=
  match decode (tableStimulus nbits w) with
  | .ok i => some i
  | .error _ => none

end Sys2Proof
end

