-- ==== Sys2Proof/Machine/Constants.lean ====
section
/-! DEFINITION. The values of the configuration (R7): D0's literals, the spec's defaults for the tables, and the configuration
of the machine at hand. -/
namespace Sys2Proof.Config

/-- D0's values of its literals (R7). -/
def literals : Literals where
  steps4 := [7459, 14913, 22371, 29829]
  steps5 := [7459, 14913, 22371, 29829, 37281]
  period4 := 29830
  half4 := [2, 4]
  half5 := [2, 4, 5]
  fsDelayOdd := 3
  fsDelayEven := 4
  triSeq :=
    #v[15, 14, 13, 12, 11, 10, 9, 8, 7, 6, 5, 4, 3, 2, 1, 0,
       0, 1, 2, 3, 4, 5, 6, 7, 8, 9, 10, 11, 12, 13, 14, 15]
  pulseNum := 9588 / 100
  pulseDenK := 8128
  pulseDenC := 100
  tndNum := 15979 / 100
  tndDenC := 100
  tndTri := 8227
  tndNoise := 12241
  tndDmc := 22638
  dmcAddrBase := 0xC000
  dmcAddrScale := 64
  dmcLenScale := 16
  dmcLenBias := 1
  dmcWrapFrom := 0xFFFF
  dmcWrapTo := 0x8000
  sweepMuteLow := 8
  sweepMuteHigh := 0x7FF
  triMuteLow := 2
  ratioMin := 995 / 1000
  ratioMax := 1005 / 1000

/-- `sweep.extra` (R27, R190): the constant polarity of each channel's sweep unit. Log 11. -/
def sweepExtra : PulseId → Nat
  | .one => 0
  | .two => 1

/-- `DUTY_TABLE`'s default (R211, D11). Log 15. -/
def dutyTable : Vector (BitVec 8) 4 := #v[0b01000000, 0b01100000, 0b01111000, 0b10011111]

/-- `LENGTH_TABLE`'s default (R217, D12). Log 15. -/
def lengthTable : Vector (BitVec 8) 32 :=
  #v[10, 254, 20, 2, 40, 4, 80, 6, 160, 8, 60, 10, 14, 12, 26, 14,
     12, 16, 24, 18, 48, 20, 96, 22, 192, 24, 72, 26, 16, 28, 32, 30]

/-- `NOISE_PERIOD`'s default (R262, D13). Log 15. -/
def noisePeriod : Vector (BitVec 12) 16 :=
  #v[4, 8, 16, 32, 64, 96, 128, 160, 202, 254, 380, 508, 762, 1016, 2034, 4068]

/-- `DMC_RATE`'s default (R282, D14). Log 15. -/
def dmcRate : Vector (BitVec 9) 16 :=
  #v[428, 380, 340, 320, 286, 254, 226, 214, 190, 160, 142, 128, 106, 84, 72, 54]

/-- D0's literals and the spec's defaults, over the OPEN parameters (R7). -/
def standard (fIn : Rat) (fOut : OutRate) (rsOutCap rbCap reportEvery : Nat) : Cfg where
  toLiterals := literals
  openBusMode := .perOffset
  apuPhase := 0
  apuDomain := { pulse := true, noise := true, dmc := true }
  period5 := 37282
  dutyTable := dutyTable
  lengthTable := lengthTable
  noisePeriod := noisePeriod
  dmcRate := dmcRate
  fIn := fIn
  fOut := fOut
  rsOutCap := rsOutCap
  rbCap := rbCap
  reportEvery := reportEvery

/-- The configuration of the machine at hand: the spec's defaults, the OPEN parameters left open. -/
def machine : Cfg :=
  standard (((fInNum + 1 : Nat) : Rat) / ((fInDen + 1 : Nat) : Rat)) fOut
    (rsOutCapLessOne + 1) (rbCapLessOne + 1) (reportEveryLessOne + 1)

end Sys2Proof.Config
end

