-- ==== Sys2Proof/Machine/Units.lean ====
section
/-! DEFINITION. The types of the units' state (R20, R25 to R34) and of what a stimulus returns (R110). -/
namespace Sys2Proof.Machine

/-- The bytes of the register space, by bus address (R20, R80): addresses strictly rising, no byte listed that an unlisted
address reads as. -/
abbrev Memory := List Host.Cell

/-- The frame sequencer's two schedules (R25, R150). -/
inductive FsMode where
  | fourStep | fiveStep
  deriving DecidableEq, Repr

/-- A `$4017` write that has not taken effect (R25, R156). -/
structure Pending where
  value : Byte
  issue : Nat
  delay : Nat
  deriving DecidableEq, Repr

/-- Frame sequencer (R25). -/
structure FrameSeq where
  mode    : FsMode
  inhibit : Bool
  irq     : Bool
  base    : Nat
  pend    : Option Pending
  deriving DecidableEq, Repr

/-- Envelope unit (R26). -/
structure Env where
  decay    : BitVec 4
  div      : BitVec 4
  start    : Bool
  constVol : Bool
  loop     : Bool
  vol      : BitVec 4
  deriving DecidableEq, Repr

/-- Sweep unit (R27); its constant polarity is `Config.sweepExtra`. -/
structure Sweep where
  enable : Bool
  period : BitVec 3
  negate : Bool
  shift  : BitVec 3
  div    : BitVec 3
  reload : Bool
  deriving DecidableEq, Repr

/-- Pulse channel (R28). -/
structure Pulse where
  enabled : Bool
  duty    : BitVec 2
  pos     : BitVec 3
  period  : BitVec 11
  timer   : BitVec 11
  length  : BitVec 8
  halt    : Bool
  env     : Env
  sweep   : Sweep
  deriving DecidableEq, Repr

/-- Triangle channel (R29). -/
structure Triangle where
  enabled      : Bool
  period       : BitVec 11
  timer        : BitVec 11
  pos          : BitVec 5
  length       : BitVec 8
  control      : Bool
  linReloadVal : BitVec 7
  linear       : BitVec 7
  linReload    : Bool
  deriving DecidableEq, Repr

/-- Noise channel (R30). -/
structure Noise where
  enabled   : Bool
  mode      : Bool
  periodIdx : BitVec 4
  timer     : BitVec 12
  lfsr      : BitVec 15
  length    : BitVec 8
  halt      : Bool
  env       : Env
  deriving DecidableEq, Repr

/-- Delta-modulation channel (R31). -/
structure Dmc where
  irqEnable : Bool
  loop      : Bool
  rateIdx   : BitVec 4
  timer     : BitVec 9
  out       : BitVec 7
  addrByte  : BitVec 8
  lenByte   : BitVec 8
  curAddr   : BitVec 16
  bytes     : BitVec 12
  shift     : BitVec 8
  bits      : BitVec 4
  irq       : Bool
  active    : Bool
  deriving DecidableEq, Repr

/-- Resampler (R33). -/
structure Resampler where
  ring : Vector Rat 4
  idx  : Fin 4
  n    : Nat
  pos  : Rat
  step : Rat
  out  : List Rat
  deriving DecidableEq, Repr

/-- Sample ring buffer (R34). -/
structure RingBuffer where
  buf   : List Rat
  wr    : Nat
  rd    : Nat
  occ   : Nat
  calls : Nat
  deriving DecidableEq, Repr

/-- What a stimulus returns (R110's "out" column). -/
inductive Response where
  /-- Writes, `CLOCK`, `RESET`, `DMA_LOAD`, `SET_RATE` return nothing. -/
  | nothing
  /-- A bus read. -/
  | byte (b : Byte)
  /-- `DMA_REQ` (R292). -/
  | request (addr : Option BusAddr)
  /-- `SAMPLE` (R384). -/
  | sample (s : Option Rat)
  /-- `IRQ` (R385). -/
  | interrupts (frame dmc line : Bool)
  /-- `RS_PULL` (R336). -/
  | batch (samples : List Rat)
  /-- `RB_WRITE` (R351). -/
  | accepted (count : Nat)
  /-- `RB_READ` (R352): the output, the count transferred, the occupancy report. -/
  | rendered (output : List Rat) (count : Nat) (report : Option Rat)
  deriving DecidableEq, Repr

end Sys2Proof.Machine
end

