-- ==== Sys2Proof/Machine/UnitReset.lean ====
section
/-! DEFINITION. The units' reset values (R25 to R34, R38). D0 prints the noise seed and the resampler's; the others are the
spec's decision D22. Log 8. -/
namespace Sys2Proof.Machine

/-- Reset values of the frame sequencer (R25). -/
def FrameSeq.reset : FrameSeq where
  mode := .fourStep
  inhibit := false
  irq := false
  base := 0
  pend := none

/-- Reset values of an envelope (R26). -/
def Env.reset : Env where
  decay := 0
  div := 0
  start := false
  constVol := false
  loop := false
  vol := 0

/-- Reset values of a sweep unit (R27). -/
def Sweep.reset : Sweep where
  enable := false
  period := 0
  negate := false
  shift := 0
  div := 0
  reload := false

/-- Reset values of a pulse channel (R28). -/
def Pulse.reset : Pulse where
  enabled := false
  duty := 0
  pos := 0
  period := 0
  timer := 0
  length := 0
  halt := false
  env := Env.reset
  sweep := Sweep.reset

/-- Reset values of the triangle (R29). -/
def Triangle.reset : Triangle where
  enabled := false
  period := 0
  timer := 0
  pos := 0
  length := 0
  control := false
  linReloadVal := 0
  linear := 0
  linReload := false

/-- Reset values of the noise channel (R30): the shift register is seeded to 1. -/
def Noise.reset : Noise where
  enabled := false
  mode := false
  periodIdx := 0
  timer := 0
  lfsr := 1
  length := 0
  halt := false
  env := Env.reset

/-- Reset values of the DMC (R31). -/
def Dmc.reset : Dmc where
  irqEnable := false
  loop := false
  rateIdx := 0
  timer := 0
  out := 0
  addrByte := 0
  lenByte := 0
  curAddr := 0x8000
  bytes := 0
  shift := 0
  bits := 0
  irq := false
  active := false

/-- Reset values of the resampler (R33, R337). -/
def Resampler.reset (cfg : Cfg) : Resampler where
  ring := Vector.replicate 4 0
  idx := 0
  n := 0
  pos := 0
  step := cfg.baseStep
  out := []

/-- Reset values of the ring buffer (R34, R357). -/
def RingBuffer.reset (cfg : Cfg) : RingBuffer where
  buf := List.replicate cfg.rbCap 0
  wr := 0
  rd := 0
  occ := 0
  calls := 0

end Sys2Proof.Machine
end

