-- ==== Sys2Proof/Machine/State.lean ====
section
/-! DEFINITION. The architectural state (R20 to R34), why a step stops, and the state after reset (R38). -/
namespace Sys2Proof.Machine

/-- The block's state. `cfg`, `queue` and `response` are the model's own (logs 1 to 3). -/
structure State where
  /-- The configuration record, a parameter that no step writes (R6, R7). -/
  cfg      : Cfg
  /-- The stimuli the agents have issued and the block has not taken, in the order of issue (R5, R6, R91). -/
  queue    : List Stimulus
  /-- What the latest stimulus returned (R110). -/
  response : Response
  /-- `shadow[]` (R20). -/
  shadow   : Memory
  /-- `busLatch` (R20). -/
  busLatch : Byte
  /-- `cyc` (R23). -/
  cyc      : Nat
  /-- `sample` (R24). -/
  sample   : Option Rat
  fs       : FrameSeq
  p1       : Pulse
  p2       : Pulse
  tri      : Triangle
  noi      : Noise
  dmc      : Dmc
  rs       : Resampler
  rb       : RingBuffer
  deriving DecidableEq, Repr

/-- `ContractViolation` (R401), the one fault of the block. The stimulus changes no state and returns nothing. -/
inductive Fault where
  /-- Raised by `DMA_LOAD` when no DMA request is pending (R296). Safe: the spec says so, and the run ends here. -/
  | cvDmaLoadNoRequest
  /-- Raised by `RB_READ` with a negative count (R355). Safe: the spec says so, and the run ends here. -/
  | cvNegativeCount
  deriving DecidableEq, Repr

/-- Why a step has no meaning to give. -/
inductive Refusal where
  /-- An instruction that the model does not have; raised by no arm of `exec`. Safe. -/
  | notModelled (mnemonic : String)
  /-- Raised by `step` for a word and payload that spell no stimulus (R83, R136). Safe: the block has no behaviour there. -/
  | invalidStimulus (reason : DecodeError)
  deriving DecidableEq, Repr

/-- The state after reset (R38) of a block configured by `cfg`, with no stimulus issued yet. -/
def State.resetOf (cfg : Cfg) : State where
  cfg := cfg
  queue := []
  response := .nothing
  shadow := []
  busLatch := 0
  cyc := 0
  sample := none
  fs := FrameSeq.reset
  p1 := Pulse.reset
  p2 := Pulse.reset
  tri := Triangle.reset
  noi := Noise.reset
  dmc := Dmc.reset
  rs := Resampler.reset cfg
  rb := RingBuffer.reset cfg

/-- The machine right after reset (R38, R430). -/
def State.reset : State := State.resetOf Config.machine

end Sys2Proof.Machine
end

