-- ==== Sys2Proof/Machine/Ops.lean ====
section
/-! DEFINITION. The named operations over the state: its updates, the shadow memory, the bus, the issue and the taking of
stimuli, the answer to a stimulus, and the one fault. -/
namespace Sys2Proof.Machine

/-! Updates of the state, one per field a step writes. -/

def State.withQueue (s : State) (q : List Stimulus) : State := { s with queue := q }
def State.withResponse (s : State) (r : Response) : State := { s with response := r }
def State.withShadow (s : State) (m : Memory) : State := { s with shadow := m }
def State.withBusLatch (s : State) (v : Byte) : State := { s with busLatch := v }
def State.withCyc (s : State) (c : Nat) : State := { s with cyc := c }
def State.withSample (s : State) (x : Option Rat) : State := { s with sample := x }
def State.withFs (s : State) (fs : FrameSeq) : State := { s with fs := fs }
def State.withP1 (s : State) (p : Pulse) : State := { s with p1 := p }
def State.withP2 (s : State) (p : Pulse) : State := { s with p2 := p }
def State.withTri (s : State) (t : Triangle) : State := { s with tri := t }
def State.withNoi (s : State) (n : Noise) : State := { s with noi := n }
def State.withDmc (s : State) (d : Dmc) : State := { s with dmc := d }
def State.withRs (s : State) (r : Resampler) : State := { s with rs := r }
def State.withRb (s : State) (b : RingBuffer) : State := { s with rb := b }

/-! The shadow memory. -/

/-- What an unlisted address of the register space reads as (R20, R88: `0x00` before any write). -/
def Memory.unlisted : Byte := 0x00

/-- The canonical form from address `lo` on: addresses strictly rising and inside the register space (R80), no byte listed
that an unlisted address reads as. -/
def Memory.canonFrom (lo : Nat) : Memory → Bool
  | [] => true
  | (a, b) :: m => decide (lo ≤ a) && decide (a ≤ 0x4017) && b != Memory.unlisted && Memory.canonFrom (a + 1) m

/-- The canonical form of the shadow memory. -/
def Memory.wf (m : Memory) : Bool := Memory.canonFrom 0x4000 m

/-- The byte at an address. -/
def Memory.read : Memory → Nat → Byte
  | [], _ => Memory.unlisted
  | (x, y) :: m, a => if a = x then y else Memory.read m a

/-- A cell put at the front, unless an unlisted address reads as its byte. -/
def Memory.consCell (a : Nat) (b : Byte) (m : Memory) : Memory :=
  if b = Memory.unlisted then m else (a, b) :: m

/-- Store a byte at an address, keeping the canonical form. -/
def Memory.write : Memory → Nat → Byte → Memory
  | [], a, b => Memory.consCell a b []
  | (x, y) :: m, a, b =>
    if a < x then Memory.consCell a b ((x, y) :: m)
    else if a = x then Memory.consCell a b m
    else (x, y) :: Memory.write m a b

/-! The bus. -/

/-- The bus address of an offset (R80). -/
def busAddress (offset : Nat) : Nat := 0x4000 + offset

/-- What every bus write does before its own effect (R20, R82): the byte goes to the offset's shadow byte, and to the latch.
Log 9. -/
def State.latchWrite (s : State) (offset : Nat) (v : Byte) : State :=
  (s.withShadow (s.shadow.write (busAddress offset) v)).withBusLatch v

/-- The byte that a read of an unreadable offset returns (R88). -/
def State.openBusByte (s : State) (offset : Nat) : Byte :=
  match s.cfg.openBusMode with
  | .perOffset => s.shadow.read (busAddress offset)
  | .singleLatch => s.busLatch

/-! Answers. -/

/-- The stimulus has run and returns `r` (R110). -/
def answer (s : State) (r : Response) : Host.Outcome State Fault Refusal := .next (s.withResponse r)

/-- `raise ContractViolation` (R401): the stimulus changes no state and returns nothing; no resumption is defined. This is the
block's whole exception mechanism: it takes no trap and returns from none (R408). Log 6. -/
def contractViolation (what : Fault) : Host.Outcome State Fault Refusal := .fault what

/-- A read of an unreadable offset: returns the open-bus byte, changes no state (R88, R376). -/
def openBusRead (offset : Nat) (s : State) : Host.Outcome State Fault Refusal :=
  answer s (.byte (s.openBusByte offset))

/-- A bus write whose only effect is the shadow byte (R133, R134). -/
def shadowOnlyWrite (offset : Nat) (v : Byte) (s : State) : Host.Outcome State Fault Refusal :=
  answer (s.latchWrite offset v) .nothing

/-! The pulse channels by number. -/

def State.pulse (s : State) : PulseId → Pulse
  | .one => s.p1
  | .two => s.p2

def State.withPulse (s : State) : PulseId → Pulse → State
  | .one, p => s.withP1 p
  | .two, p => s.withP2 p

/-! The agents' stimuli. -/

/-- An agent issues a stimulus after those already issued (R91). -/
def State.issue (s : State) (st : Stimulus) : State := s.withQueue (s.queue ++ [st])

/-- A stimulus stands before those already issued: the next one taken. -/
def State.issueFirst (s : State) (st : Stimulus) : State := s.withQueue (st :: s.queue)

/-- The next stimulus, and the state once it is taken from the queue. -/
def State.fetch (s : State) : Option (Stimulus × State) :=
  match s.queue with
  | [] => none
  | st :: rest => some (st, s.withQueue rest)

end Sys2Proof.Machine
end

