-- ==== Sys2Proof/Machine/Operands.lean ====
section
/-! DEFINITION. Operand forms: the bit fields of the data byte per register (R113 to R130), the operands assembled from
several bytes (R127, R131) and the table lookups (R132). -/
namespace Sys2Proof.Machine.Operand

/-! `$4000`, `$4004` (R113) and the envelope's part of `$400C` (R120). -/

/-- `D = v[7:6]`, duty select. -/
def duty (v : Byte) : BitVec 2 := v.extractLsb' 6 2
/-- `L = v[5]`, envelope loop and length halt. -/
def loopHalt (v : Byte) : Bool := v.getLsbD 5
/-- `C = v[4]`, constant volume. -/
def constVol (v : Byte) : Bool := v.getLsbD 4
/-- `V = v[3:0]`, volume or period. -/
def vol (v : Byte) : BitVec 4 := v.extractLsb' 0 4

/-! `$4001`, `$4005` (R114). -/

/-- `E = v[7]`, sweep enable. -/
def sweepEnable (v : Byte) : Bool := v.getLsbD 7
/-- `P = v[6:4]`, sweep divider period. -/
def sweepPeriod (v : Byte) : BitVec 3 := v.extractLsb' 4 3
/-- `N = v[3]`, negate. -/
def sweepNegate (v : Byte) : Bool := v.getLsbD 3
/-- `S = v[2:0]`, shift count. -/
def sweepShift (v : Byte) : BitVec 3 := v.extractLsb' 0 3

/-! `$4003`, `$4007` (R116), `$400B` (R119), `$400F` (R122). -/

/-- `L = v[7:3]`, length index. -/
def lengthIndex (v : Byte) : BitVec 5 := v.extractLsb' 3 5
/-- `H = v[2:0]`, timer high. -/
def timerHigh (v : Byte) : BitVec 3 := v.extractLsb' 0 3

/-! `$4008` (R117). -/

/-- `C = v[7]`, control and halt. -/
def triControl (v : Byte) : Bool := v.getLsbD 7
/-- `R = v[6:0]`, linear-counter reload value. -/
def triReload (v : Byte) : BitVec 7 := v.extractLsb' 0 7

/-! `$400E` (R121). -/

/-- `M = v[7]`, noise mode. -/
def noiseMode (v : Byte) : Bool := v.getLsbD 7
/-- `P = v[3:0]`, noise period index. -/
def noisePeriodIdx (v : Byte) : BitVec 4 := v.extractLsb' 0 4

/-! `$4010` (R123), `$4011` (R124). -/

/-- `I = v[7]`, DMC interrupt enable. -/
def dmcIrqEnable (v : Byte) : Bool := v.getLsbD 7
/-- `L = v[6]`, DMC loop. -/
def dmcLoop (v : Byte) : Bool := v.getLsbD 6
/-- `R = v[3:0]`, DMC rate index. -/
def dmcRateIdx (v : Byte) : BitVec 4 := v.extractLsb' 0 4
/-- `D = v[6:0]`, DMC output level. -/
def dmcLevel (v : Byte) : BitVec 7 := v.extractLsb' 0 7

/-! `$4015` write (R128). -/

def enableP1 (v : Byte) : Bool := v.getLsbD 0
def enableP2 (v : Byte) : Bool := v.getLsbD 1
def enableTri (v : Byte) : Bool := v.getLsbD 2
def enableNoi (v : Byte) : Bool := v.getLsbD 3
def enableDmc (v : Byte) : Bool := v.getLsbD 4

/-! `$4017` (R130). -/

/-- `M = v[7]`: 1 selects the 5-step schedule. -/
def fsMode (v : Byte) : FsMode := if v.getLsbD 7 then .fiveStep else .fourStep
/-- `I = v[6]`, interrupt inhibit. -/
def fsInhibit (v : Byte) : Bool := v.getLsbD 6

/-! The 11-bit timer period (R131). -/

/-- `p[10:8] ‖ v[7:0]`, a write of the low byte. -/
def periodLow (p : BitVec 11) (v : Byte) : BitVec 11 := p.extractLsb' 8 3 ++ v

/-- `v[2:0] ‖ p[7:0]`, a write of the high bits. -/
def periodHigh (p : BitVec 11) (v : Byte) : BitVec 11 := timerHigh v ++ p.extractLsb' 0 8

/-! The DMC's address and length (R127). -/

/-- `sampleAddr = 0xC000 + addrByte * 64`. -/
def sampleAddr (cfg : Cfg) (addrByte : Byte) : BitVec 16 :=
  BitVec.ofNat 16 (cfg.dmcAddrBase + addrByte.toNat * cfg.dmcAddrScale)

/-- `sampleLen = lenByte * 16 + 1`. -/
def sampleLen (cfg : Cfg) (lenByte : Byte) : BitVec 12 :=
  BitVec.ofNat 12 (lenByte.toNat * cfg.dmcLenScale + cfg.dmcLenBias)

/-! Table lookups (R132). -/

/-- `DUTY_TABLE[duty][pos]` (R211): position 0 is the pattern's leftmost bit. -/
def dutyBit (cfg : Cfg) (duty : BitVec 2) (pos : BitVec 3) : Bool :=
  (cfg.dutyTable[duty.toNat]'(duty.isLt)).getMsbD pos.toNat

/-- `LENGTH_TABLE[index]` (R217). -/
def lengthOf (cfg : Cfg) (index : BitVec 5) : BitVec 8 := cfg.lengthTable[index.toNat]'(index.isLt)

/-- `NOISE_PERIOD[index]` (R262). -/
def noiseReload (cfg : Cfg) (index : BitVec 4) : BitVec 12 := cfg.noisePeriod[index.toNat]'(index.isLt)

/-- `DMC_RATE[index]` (R282). -/
def dmcReload (cfg : Cfg) (index : BitVec 4) : BitVec 9 := cfg.dmcRate[index.toNat]'(index.isLt)

/-- `TRI_SEQ[pos]` (R241). -/
def triLevel (cfg : Cfg) (pos : BitVec 5) : BitVec 4 := cfg.triSeq[pos.toNat]'(pos.isLt)

/-- The length counter's value after a write that may load it (R216): only while the channel is enabled. -/
def loadedLength (cfg : Cfg) (enabled : Bool) (v : Byte) (length : BitVec 8) : BitVec 8 :=
  if enabled then lengthOf cfg (lengthIndex v) else length

/-- The effective step for a rate ratio (R335): the ratio clamped, times the base step. -/
def clampRatio (cfg : Cfg) (r : Rat) : Rat := min (max r cfg.ratioMin) cfg.ratioMax

end Sys2Proof.Machine.Operand
end

