-- ==== Sys2Proof/Machine/Resampler.lean ====
section
/-! DEFINITION. The cubic resampler (R330 to R339), `SET_RATE` and `RS_PULL`, in exact rationals. -/
namespace Sys2Proof.Machine

/-- The ring sample `k` places after the oldest one (R332): `idx` is the next slot to write, the oldest sample's. Log 19. -/
def Resampler.tap (rs : Resampler) (k : Fin 4) : Rat := rs.ring[rs.idx + k]

/-- The cubic through four samples in chronological order (R332). -/
def cubic (y0 y1 y2 y3 t : Rat) : Rat :=
  let a0 := y1
  let a1 := 1 / 2 * (y2 - y0)
  let a2 := y0 - 5 / 2 * y1 + 2 * y2 - 1 / 2 * y3
  let a3 := 1 / 2 * (y3 - y0) + 3 / 2 * (y1 - y2)
  a0 + t * (a1 + t * (a2 + t * a3))

/-- `rs.interp(t)` (R332). -/
def Resampler.interp (rs : Resampler) (t : Rat) : Rat := cubic (rs.tap 0) (rs.tap 1) (rs.tap 2) (rs.tap 3) t

/-- A push stores the sample, turns the ring, counts the first four pushes and advances the position by 1 (R331). -/
def Resampler.store (rs : Resampler) (x : Rat) : Resampler :=
  { rs with
    ring := rs.ring.set rs.idx.val x rs.idx.isLt
    idx := rs.idx + 1
    n := if rs.n < 4 then rs.n + 1 else rs.n
    pos := rs.pos + 1 }

/-- `t = 1 − (pos − step) / step` (R331). -/
def Resampler.fraction (rs : Resampler) : Rat := 1 - (rs.pos - rs.step) / rs.step

/-- Append to the output buffer, or drop if it is full (R333). -/
def Resampler.append (rs : Resampler) (cap : Nat) (o : Rat) : List Rat :=
  if rs.out.length < cap then rs.out ++ [o] else rs.out

/-- One pass of the loop (R331). -/
def Resampler.pass (rs : Resampler) (cap : Nat) : Resampler :=
  { rs with out := rs.append cap (rs.interp rs.fraction), pos := rs.pos - rs.step }

/-- The loop of R331, at most `k` passes: it ends when the position is below the step. -/
def Resampler.passes (cap : Nat) : Nat → Resampler → Resampler
  | 0, rs => rs
  | k + 1, rs => if rs.step ≤ rs.pos then Resampler.passes cap k (rs.pass cap) else rs

/-- The number of passes of one push, `floor(pos / step)` after the increment (R331). Log 21. -/
def Resampler.passCount (rs : Resampler) : Nat := (rs.pos / rs.step).floor.toNat

/-- The loop of R331. -/
def Resampler.drain (rs : Resampler) (cap : Nat) : Resampler := Resampler.passes cap rs.passCount rs

/-- `rs.push(x)` (R331): no output before the fourth push since reset (R334). -/
def Resampler.push (rs : Resampler) (cap : Nat) (x : Rat) : Resampler :=
  if (rs.store x).n < 4 then rs.store x else (rs.store x).drain cap

/-- `SET_RATE` on the resampler (R335). -/
def Resampler.setRate (rs : Resampler) (cfg : Cfg) (r : Rat) : Resampler :=
  { rs with step := cfg.baseStep * Operand.clampRatio cfg r }

/-- `RS_PULL` on the resampler (R336). -/
def Resampler.clearOut (rs : Resampler) : Resampler := { rs with out := [] }

/-- `SET_RATE` (R335). -/
def execSetRate (r : Rat) (s : State) : Host.Outcome State Fault Refusal :=
  answer (s.withRs (s.rs.setRate s.cfg r)) .nothing

/-- `RS_PULL` (R336). -/
def execRsPull (s : State) : Host.Outcome State Fault Refusal :=
  answer (s.withRs s.rs.clearOut) (.batch s.rs.out)

end Sys2Proof.Machine
end

