-- ==== Sys2Proof/Machine/RingBuffer.lean ====
section
/-! DEFINITION. The sample ring buffer (R350 to R357), `RB_WRITE` and `RB_READ`. -/
namespace Sys2Proof.Machine

/-- One sample stored at the write cursor (R351). -/
def RingBuffer.put (rb : RingBuffer) (cap : Nat) (x : Rat) : RingBuffer :=
  { rb with buf := rb.buf.set rb.wr x, wr := (rb.wr + 1) % cap }

/-- The samples of a batch stored in order (R351). -/
def RingBuffer.putAll (cap : Nat) : List Rat → RingBuffer → RingBuffer
  | [], rb => rb
  | x :: xs, rb => RingBuffer.putAll cap xs (rb.put cap x)

/-- How many samples of a batch fit (R351). -/
def RingBuffer.room (rb : RingBuffer) (cap : Nat) (samples : List Rat) : Nat := min samples.length (cap - rb.occ)

/-- `RB_WRITE` on the buffer (R351): the first that fit, the rest dropped. -/
def RingBuffer.write (rb : RingBuffer) (cap : Nat) (samples : List Rat) : RingBuffer :=
  let k := rb.room cap samples
  { RingBuffer.putAll cap (samples.take k) rb with occ := rb.occ + k }

/-- The sample at the read cursor (R352). -/
def RingBuffer.front (rb : RingBuffer) : Rat := rb.buf.getD rb.rd 0

/-- The read cursor moves on (R352). -/
def RingBuffer.advance (rb : RingBuffer) (cap : Nat) : RingBuffer := { rb with rd := (rb.rd + 1) % cap }

/-- `k` samples read in order, and the buffer after it (R352). -/
def RingBuffer.takeMany (cap : Nat) : Nat → RingBuffer → List Rat × RingBuffer
  | 0, rb => ([], rb)
  | k + 1, rb =>
    let r := RingBuffer.takeMany cap k (rb.advance cap)
    (rb.front :: r.1, r.2)

/-- `RB_READ` on the buffer before the report (R352): the output, filled with zeros to `count`, the count transferred, and
the buffer. -/
def RingBuffer.read (rb : RingBuffer) (cap count : Nat) : List Rat × Nat × RingBuffer :=
  let k := min count rb.occ
  let r := RingBuffer.takeMany cap k rb
  (r.1 ++ List.replicate (count - k) 0, k, { r.2 with occ := rb.occ - k })

/-- `rb.report()` (R353): every `REPORT_EVERY`-th render call reports the fractional occupancy. Log 19. -/
def RingBuffer.report (rb : RingBuffer) (cfg : Cfg) : Option Rat × RingBuffer :=
  if rb.calls + 1 = cfg.reportEvery then (some ((rb.occ : Rat) / (cfg.rbCap : Rat)), { rb with calls := 0 })
  else (none, { rb with calls := rb.calls + 1 })

/-- `RB_WRITE` (R351). -/
def execRbWrite (samples : List Rat) (s : State) : Host.Outcome State Fault Refusal :=
  answer (s.withRb (s.rb.write s.cfg.rbCap samples)) (.accepted (s.rb.room s.cfg.rbCap samples))

/-- `RB_READ` with a natural count (R352). -/
def renderRead (count : Nat) (s : State) : Host.Outcome State Fault Refusal :=
  let r := s.rb.read s.cfg.rbCap count
  let p := r.2.2.report s.cfg
  answer (s.withRb p.2) (.rendered r.1 r.2.1 p.1)

/-- `RB_READ` (R352, R355). -/
def execRbRead (count : Int) (s : State) : Host.Outcome State Fault Refusal :=
  if count < 0 then contractViolation .cvNegativeCount else renderRead count.toNat s

end Sys2Proof.Machine
end

