-- ==== Sys2Proof/Machine/Flags.lean ====
section
/-! DEFINITION. The flags that are derived rather than stored: sweep muting (R194), channel-active (R377), the pending DMA
request (R292), the status byte (R375), the interrupt line (R385), and the APU-cycle tick (R382). -/
namespace Sys2Proof.Machine

/-- `sweep.target(cur)` (R192), `extra` the channel's polarity. Exact, on naturals; log 21 on the subtraction. -/
def Sweep.target (sw : Sweep) (extra : Nat) (cur : BitVec 11) : Nat :=
  let delta := cur.toNat >>> sw.shift.toNat
  if sw.negate then cur.toNat - delta - extra else cur.toNat + delta

/-- `sweep.isMuting(cur)` (R194). -/
def Sweep.isMuting (sw : Sweep) (cfg : Cfg) (cur : BitVec 11) : Bool :=
  decide (cur.toNat < cfg.sweepMuteLow) ||
    (!sw.negate && decide (cur.toNat + (cur.toNat >>> sw.shift.toNat) > cfg.sweepMuteHigh))

/-- The channel-active flag of a channel with a length counter (R377). -/
def lengthActive (length : BitVec 8) : Bool := decide (0 < length.toNat)

/-- `DMA_REQ` (R292). -/
def Dmc.request (d : Dmc) : Option BusAddr :=
  if d.active ∧ d.bits = 0 ∧ 0 < d.bytes.toNat then some d.curAddr else none

/-- The status byte `IF0DNT21` (R129, R375). -/
def State.statusByte (s : State) : Byte :=
  BitVec.ofBool s.dmc.irq ++ BitVec.ofBool s.fs.irq ++ 0#1 ++ BitVec.ofBool s.dmc.active ++
    BitVec.ofBool (lengthActive s.noi.length) ++ BitVec.ofBool (lengthActive s.tri.length) ++
    BitVec.ofBool (lengthActive s.p2.length) ++ BitVec.ofBool (lengthActive s.p1.length)

/-- The interrupt line (R385, R406). -/
def State.irqLine (s : State) : Bool := s.fs.irq || s.dmc.irq

/-- The CLOCK at hand ticks the APU cycle (R382). -/
def State.apuTick (s : State) : Bool := decide (s.cyc % 2 = s.cfg.apuPhase.val)

/-- A timer of the given domain runs in the CLOCK at hand (R382). -/
def State.timerRuns (s : State) (halfRate : Bool) : Bool := !halfRate || s.apuTick

end Sys2Proof.Machine
end

