-- ==== Sys2Proof/Machine/Dmc.lean ====
section
/-! DEFINITION. The delta-modulation channel (R280 to R297), `W4010` to `W4013`, `DMA_REQ` and `DMA_LOAD`. -/
namespace Sys2Proof.Machine

/-- `writeControl` (R281): clearing the interrupt enable clears the flag. -/
def Dmc.writeControl (d : Dmc) (v : Byte) : Dmc :=
  { d with
    irqEnable := Operand.dmcIrqEnable v
    irq := d.irq && Operand.dmcIrqEnable v
    loop := Operand.dmcLoop v
    rateIdx := Operand.dmcRateIdx v }

/-- `writeDirectLoad` (R283). -/
def Dmc.writeDirectLoad (d : Dmc) (v : Byte) : Dmc := { d with out := Operand.dmcLevel v }

/-- `writeSampleAddress` (R284). -/
def Dmc.writeSampleAddress (d : Dmc) (v : Byte) : Dmc := { d with addrByte := v }

/-- `writeSampleLength` (R285). -/
def Dmc.writeSampleLength (d : Dmc) (v : Byte) : Dmc := { d with lenByte := v }

/-- The address and length counters loaded from the sample registers (R286, R295). -/
def Dmc.loadSample (d : Dmc) (cfg : Cfg) : Dmc :=
  { d with curAddr := Operand.sampleAddr cfg d.addrByte, bytes := Operand.sampleLen cfg d.lenByte }

/-- `dmc.start()` (R286): no effect while a sample is playing. -/
def Dmc.start (d : Dmc) (cfg : Cfg) : Dmc := if d.bytes = 0 then { d.loadSample cfg with active := true } else d

/-- `dmc.stop()` (R287). Log 17. -/
def Dmc.stop (d : Dmc) : Dmc := { d with bytes := 0, active := false }

/-- The DMC enable bit of `$4015` (R373). -/
def Dmc.setEnabled (d : Dmc) (cfg : Cfg) (e : Bool) : Dmc := if e then d.start cfg else d.stop

/-- Any write of `$4015` clears the interrupt flag (R371). -/
def Dmc.clearIrq (d : Dmc) : Dmc := { d with irq := false }

/-- The output level after one delta bit (R289): up or down by 2, saturating at 127 and 0. -/
def deltaLevel (up : Bool) (out : BitVec 7) : BitVec 7 :=
  BitVec.ofNat 7 (if up then min (out.toNat + 2) 127 else out.toNat - 2)

/-- One delta bit is consumed, low bit first, if any remains (R289). -/
def Dmc.consumeBit (d : Dmc) : Dmc :=
  if d.bits = 0 then d
  else { d with out := deltaLevel (d.shift.getLsbD 0) d.out, shift := d.shift >>> 1, bits := d.bits - 1 }

/-- `dmc.clock()` (R289). -/
def Dmc.clock (d : Dmc) (cfg : Cfg) : Dmc :=
  if d.timer = 0 then { d.consumeBit with timer := Operand.dmcReload cfg d.rateIdx }
  else { d with timer := d.timer - 1 }

/-- `dmc.output()` (R290). -/
def Dmc.output (d : Dmc) : BitVec 7 := d.out

/-- The address after `a` (R294): `0xFFFF` is followed by `0x8000`. -/
def nextSampleAddr (cfg : Cfg) (a : BitVec 16) : BitVec 16 := if a = cfg.dmcWrapFrom then cfg.dmcWrapTo else a + 1

/-- `end_of_sample()` (R295): a loop restarts silently; otherwise the channel turns inactive and raises the interrupt if
enabled. -/
def Dmc.endOfSample (d : Dmc) (cfg : Cfg) : Dmc :=
  if d.loop then d.loadSample cfg else { d with irq := d.irq || d.irqEnable, active := false }

/-- The byte goes to the shift buffer, the address advances and the byte counter goes down (R294). -/
def Dmc.takeByte (d : Dmc) (cfg : Cfg) (b : Byte) : Dmc :=
  { d with shift := b, bits := 8, curAddr := nextSampleAddr cfg d.curAddr, bytes := d.bytes - 1 }

/-- `DMA_LOAD` with a request pending (R294). -/
def Dmc.loadSampleByte (d : Dmc) (cfg : Cfg) (b : Byte) : Dmc :=
  if (d.takeByte cfg b).bytes = 0 then (d.takeByte cfg b).endOfSample cfg else d.takeByte cfg b

/-- `W4010` (R281). -/
def execW4010 (v : Byte) (s : State) : Host.Outcome State Fault Refusal :=
  answer ((s.latchWrite 0x10 v).withDmc (s.dmc.writeControl v)) .nothing

/-- `W4011` (R283). -/
def execW4011 (v : Byte) (s : State) : Host.Outcome State Fault Refusal :=
  answer ((s.latchWrite 0x11 v).withDmc (s.dmc.writeDirectLoad v)) .nothing

/-- `W4012` (R284). -/
def execW4012 (v : Byte) (s : State) : Host.Outcome State Fault Refusal :=
  answer ((s.latchWrite 0x12 v).withDmc (s.dmc.writeSampleAddress v)) .nothing

/-- `W4013` (R285). -/
def execW4013 (v : Byte) (s : State) : Host.Outcome State Fault Refusal :=
  answer ((s.latchWrite 0x13 v).withDmc (s.dmc.writeSampleLength v)) .nothing

/-- `DMA_REQ` (R292): an observation. -/
def execDmaReq (s : State) : Host.Outcome State Fault Refusal := answer s (.request s.dmc.request)

/-- `DMA_LOAD` (R294, R296). -/
def execDmaLoad (b : Byte) (s : State) : Host.Outcome State Fault Refusal :=
  match s.dmc.request with
  | none => contractViolation .cvDmaLoadNoRequest
  | some _ => answer (s.withDmc (s.dmc.loadSampleByte s.cfg b)) .nothing

end Sys2Proof.Machine
end

