-- ==== Sys2Proof/Machine/FrameSequencer.lean ====
section
/-! DEFINITION. The frame sequencer (R150 to R161) and `W4017`. -/
namespace Sys2Proof.Machine

/-- The pulses of one CLOCK (R151). -/
structure FrameEvents where
  quarter  : Bool
  half     : Bool
  irqPulse : Bool
  deriving DecidableEq, Repr

/-- The step cycles of a schedule (R150). -/
def FsMode.steps (cfg : Cfg) : FsMode → List Nat
  | .fourStep => cfg.steps4
  | .fiveStep => cfg.steps5

/-- The period of a schedule (R150). -/
def FsMode.period (cfg : Cfg) : FsMode → Nat
  | .fourStep => cfg.period4
  | .fiveStep => cfg.period5

/-- The numbers of a schedule's half-frame steps (R153). -/
def FsMode.halves (cfg : Cfg) : FsMode → List Nat
  | .fourStep => cfg.half4
  | .fiveStep => cfg.half5

/-- The position in the schedule, `rel` of R151. -/
def FrameSeq.rel (fs : FrameSeq) (cfg : Cfg) (c : Nat) : Nat := (c - fs.base) % fs.mode.period cfg

/-- The position is step number `k`, counted from 1 (R150). -/
def FrameSeq.atStep (fs : FrameSeq) (cfg : Cfg) (c k : Nat) : Bool :=
  (fs.mode.steps cfg)[k - 1]? == some (fs.rel cfg c)

/-- The periodic pulses under the mode and origin in force: part 2 of R151, with R152, R153, R154. -/
def FrameSeq.schedule (fs : FrameSeq) (cfg : Cfg) (c : Nat) : FrameEvents where
  quarter := (fs.mode.steps cfg).contains (fs.rel cfg c)
  half := (fs.mode.halves cfg).any (fs.atStep cfg c)
  irqPulse := fs.mode == .fourStep && fs.atStep cfg c 4 && !fs.inhibit

/-- The pending write takes effect in the CLOCK numbered `c` (R157). -/
def Pending.due (p : Pending) (c : Nat) : Bool := c == p.issue + p.delay

/-- A control write takes effect (R157, R158): mode and inhibit flag loaded, origin set to the issue cycle, the interrupt
cleared if bit 6 is set. Log 10. -/
def FrameSeq.takeEffect (fs : FrameSeq) (p : Pending) : FrameSeq where
  mode := Operand.fsMode p.value
  inhibit := Operand.fsInhibit p.value
  irq := fs.irq && !Operand.fsInhibit p.value
  base := p.issue
  pend := none

/-- Part 1 of R151. -/
def FrameSeq.applyPending (fs : FrameSeq) (c : Nat) : FrameSeq :=
  match fs.pend with
  | none => fs
  | some p => if p.due c then fs.takeEffect p else fs

/-- The immediate quarter- and half-frame of a 5-step write taking effect (R157). -/
def FrameSeq.immediate (fs : FrameSeq) (c : Nat) : Bool :=
  match fs.pend with
  | none => false
  | some p => p.due c && Operand.fsMode p.value == .fiveStep

/-- `fs.clock(c)` (R151). -/
def FrameSeq.clock (fs : FrameSeq) (cfg : Cfg) (c : Nat) : FrameEvents × FrameSeq :=
  let applied := fs.applyPending c
  let ev := applied.schedule cfg c
  ({ quarter := fs.immediate c || ev.quarter, half := fs.immediate c || ev.half, irqPulse := ev.irqPulse },
   { applied with irq := applied.irq || ev.irqPulse })

/-- The delay of a write issued in cycle `w` (R156). -/
def writeDelay (cfg : Cfg) (w : Nat) : Nat := if w % 2 = 1 then cfg.fsDelayOdd else cfg.fsDelayEven

/-- What a new write does to the pending one (R159, D9): the last write wins, restarting the delay. The spec asks that this
be one function, so that the alternative can be substituted (R441). Log 10. -/
def mergePending (_pending : Option Pending) (new : Pending) : Option Pending := some new

/-- `fs.write(v)` in issue cycle `w` (R156). -/
def FrameSeq.write (fs : FrameSeq) (cfg : Cfg) (v : Byte) (w : Nat) : FrameSeq :=
  { fs with pend := mergePending fs.pend { value := v, issue := w, delay := writeDelay cfg w } }

/-- `fs.clearIrqFlag()` (R160). -/
def FrameSeq.clearIrqFlag (fs : FrameSeq) : FrameSeq := { fs with irq := false }

/-- `W4017` (R161). -/
def execW4017 (v : Byte) (s : State) : Host.Outcome State Fault Refusal :=
  answer ((s.latchWrite 0x17 v).withFs (s.fs.write s.cfg v s.cyc)) .nothing

end Sys2Proof.Machine
end

