-- ==== Sys2Proof/Machine/Envelope.lean ====
section
/-! DEFINITION. The envelope unit (R180 to R185), the sweep unit's clock (R190 to R197) and the length counter's (R218). -/
namespace Sys2Proof.Machine

/-- `env.setRegister(b)` (R180). -/
def Env.setRegister (env : Env) (b : Byte) : Env :=
  { env with vol := Operand.vol b, constVol := Operand.constVol b, loop := Operand.loopHalt b }

/-- `env.setStartFlag()` (R181). -/
def Env.setStartFlag (env : Env) : Env := { env with start := true }

/-- The next decay level: one less, wrapping from 0 to 15 when looping, else floored at 0 (R183). -/
def Env.nextDecay (env : Env) : BitVec 4 :=
  if env.decay ≠ 0 then env.decay - 1 else if env.loop then 15 else 0

/-- `env.clock()` (R183). -/
def Env.clock (env : Env) : Env :=
  if env.start then { env with start := false, decay := 15, div := env.vol }
  else if env.div = 0 then { env with div := env.vol, decay := env.nextDecay }
  else { env with div := env.div - 1 }

/-- `env.output()` (R184). -/
def Env.output (env : Env) : BitVec 4 := if env.constVol then env.vol else env.decay

/-- `sweep.setRegister(b)` (R191). -/
def Sweep.setRegister (sw : Sweep) (b : Byte) : Sweep :=
  { sw with
    enable := Operand.sweepEnable b
    period := Operand.sweepPeriod b
    negate := Operand.sweepNegate b
    shift := Operand.sweepShift b
    reload := true }

/-- The sweep returns a period in this clock (R195): the divider is at 0, the unit enabled, its shift not 0, and it is not
muting. Log 16. -/
def Sweep.returns (sw : Sweep) (cfg : Cfg) (cur : BitVec 11) : Bool :=
  sw.div == 0 && sw.enable && sw.shift != 0 && !sw.isMuting cfg cur

/-- The divider and reload flag after a sweep clock (R195). -/
def Sweep.tick (sw : Sweep) : Sweep :=
  if sw.div = 0 ∨ sw.reload then { sw with div := sw.period, reload := false }
  else { sw with div := sw.div - 1 }

/-- `sweep.clock(cur)` (R195): the new period or none, and the unit after the clock. The target fits 11 bits whenever it is
returned (R193). -/
def Sweep.clock (sw : Sweep) (cfg : Cfg) (extra : Nat) (cur : BitVec 11) : Option (BitVec 11) × Sweep :=
  (if sw.returns cfg cur then some (BitVec.ofNat 11 (sw.target extra cur)) else none, sw.tick)

/-- A length counter's clock (R218): counts down to 0 unless halted. -/
def clockLength (halt : Bool) (length : BitVec 8) : BitVec 8 :=
  if halt then length else if length = 0 then 0 else length - 1

end Sys2Proof.Machine
end

