-- ==== Sys2Proof/Machine/Noise.lean ====
section
/-! DEFINITION. The noise channel (R260 to R270) and `W400C` to `W400F`. -/
namespace Sys2Proof.Machine

/-- Offset 0 (R261). -/
def Noise.writeControl (n : Noise) (v : Byte) : Noise :=
  { n with halt := Operand.loopHalt v, env := n.env.setRegister v }

/-- Offset 2 (R263). -/
def Noise.writePeriod (n : Noise) (v : Byte) : Noise :=
  { n with mode := Operand.noiseMode v, periodIdx := Operand.noisePeriodIdx v }

/-- Offset 3 (R264). -/
def Noise.writeLength (n : Noise) (cfg : Cfg) (v : Byte) : Noise :=
  { n with length := Operand.loadedLength cfg n.enabled v n.length, env := n.env.setStartFlag }

/-- `setEnabled` (R372). Log 18. -/
def Noise.setEnabled (n : Noise) (e : Bool) : Noise :=
  { n with enabled := e, length := if e then n.length else 0 }

/-- `noi.clockEnvelope()` (R267). -/
def Noise.clockEnvelope (n : Noise) : Noise := { n with env := n.env.clock }

/-- `noi.clockLength()` (R267). -/
def Noise.clockLength (n : Noise) : Noise := { n with length := Machine.clockLength n.halt n.length }

/-- The feedback bit (R266): bit 0 against bit 6 in short mode, bit 1 in long mode. -/
def Noise.feedback (n : Noise) : Bool :=
  xor (n.lfsr.getLsbD 0) (if n.mode then n.lfsr.getLsbD 6 else n.lfsr.getLsbD 1)

/-- One shift of the register (R266): `feedback ‖ lfsr[14:1]`. -/
def Noise.shifted (n : Noise) : BitVec 15 := BitVec.ofBool n.feedback ++ n.lfsr.extractLsb' 1 14

/-- `noi.clockTimer()` (R266). -/
def Noise.clockTimer (n : Noise) (cfg : Cfg) : Noise :=
  if n.timer = 0 then { n with timer := Operand.noiseReload cfg n.periodIdx, lfsr := n.shifted }
  else { n with timer := n.timer - 1 }

/-- `noi.output()` (R268). -/
def Noise.output (n : Noise) : BitVec 4 :=
  if !n.enabled then 0
  else if n.length = 0 then 0
  else if n.lfsr.getLsbD 0 then 0
  else n.env.output

/-- `W400C` (R261). -/
def execW400C (v : Byte) (s : State) : Host.Outcome State Fault Refusal :=
  answer ((s.latchWrite 0x0C v).withNoi (s.noi.writeControl v)) .nothing

/-- `W400D` (R265): unused. -/
def execW400D (v : Byte) (s : State) : Host.Outcome State Fault Refusal := shadowOnlyWrite 0x0D v s

/-- `W400E` (R263). -/
def execW400E (v : Byte) (s : State) : Host.Outcome State Fault Refusal :=
  answer ((s.latchWrite 0x0E v).withNoi (s.noi.writePeriod v)) .nothing

/-- `W400F` (R264). -/
def execW400F (v : Byte) (s : State) : Host.Outcome State Fault Refusal :=
  answer ((s.latchWrite 0x0F v).withNoi (s.noi.writeLength s.cfg v)) .nothing

end Sys2Proof.Machine
end

