-- ==== Sys2Proof/Machine/Pulse.lean ====
section
/-! DEFINITION. The pulse channels (R210 to R224) and `W4000` to `W4007`. -/
namespace Sys2Proof.Machine

/-! What a write does to a channel. -/

/-- Offset 0 (R212). -/
def Pulse.writeControl (p : Pulse) (v : Byte) : Pulse :=
  { p with duty := Operand.duty v, halt := Operand.loopHalt v, env := p.env.setRegister v }

/-- Offset 1 (R213). -/
def Pulse.writeSweep (p : Pulse) (v : Byte) : Pulse := { p with sweep := p.sweep.setRegister v }

/-- Offset 2 (R214). -/
def Pulse.writeTimerLow (p : Pulse) (v : Byte) : Pulse := { p with period := Operand.periodLow p.period v }

/-- Offset 3 (R215): length load if enabled, period high bits, position reset, envelope restart. -/
def Pulse.writeTimerHigh (p : Pulse) (cfg : Cfg) (v : Byte) : Pulse :=
  { p with
    length := Operand.loadedLength cfg p.enabled v p.length
    period := Operand.periodHigh p.period v
    pos := 0
    env := p.env.setStartFlag }

/-- `setEnabled` (R372). Log 18. -/
def Pulse.setEnabled (p : Pulse) (e : Bool) : Pulse :=
  { p with enabled := e, length := if e then p.length else 0 }

/-! What a CLOCK does to a channel. -/

/-- `p.clockEnvelope()` (R220). -/
def Pulse.clockEnvelope (p : Pulse) : Pulse := { p with env := p.env.clock }

/-- `p.clockLength()` (R218). -/
def Pulse.clockLength (p : Pulse) : Pulse := { p with length := Machine.clockLength p.halt p.length }

/-- `p.clockSweep()` (R222). -/
def Pulse.clockSweep (p : Pulse) (cfg : Cfg) (extra : Nat) : Pulse :=
  let r := p.sweep.clock cfg extra p.period
  { p with period := r.1.getD p.period, sweep := r.2 }

/-- `p.clockTimer()` (R221). -/
def Pulse.clockTimer (p : Pulse) : Pulse :=
  if p.timer = 0 then { p with timer := p.period, pos := p.pos + 1 } else { p with timer := p.timer - 1 }

/-- `p.output()` (R223). -/
def Pulse.output (p : Pulse) (cfg : Cfg) : BitVec 4 :=
  if !p.enabled then 0
  else if p.length = 0 then 0
  else if p.sweep.isMuting cfg p.period then 0
  else if !Operand.dutyBit cfg p.duty p.pos then 0
  else if p.period.toNat < cfg.sweepMuteLow then 0
  else p.env.output

/-! The stimuli: the byte to the offset's shadow byte, then the channel's own write. -/

/-- A bus write to a pulse channel. -/
def pulseWrite (id : PulseId) (offset : Nat) (v : Byte) (s : State) (p : Pulse) :
    Host.Outcome State Fault Refusal :=
  answer ((s.latchWrite offset v).withPulse id p) .nothing

/-- `W4000` (R212). -/
def execW4000 (v : Byte) (s : State) : Host.Outcome State Fault Refusal :=
  pulseWrite .one 0x00 v s (s.p1.writeControl v)

/-- `W4001` (R213). -/
def execW4001 (v : Byte) (s : State) : Host.Outcome State Fault Refusal :=
  pulseWrite .one 0x01 v s (s.p1.writeSweep v)

/-- `W4002` (R214). -/
def execW4002 (v : Byte) (s : State) : Host.Outcome State Fault Refusal :=
  pulseWrite .one 0x02 v s (s.p1.writeTimerLow v)

/-- `W4003` (R215). -/
def execW4003 (v : Byte) (s : State) : Host.Outcome State Fault Refusal :=
  pulseWrite .one 0x03 v s (s.p1.writeTimerHigh s.cfg v)

/-- `W4004` (R212). -/
def execW4004 (v : Byte) (s : State) : Host.Outcome State Fault Refusal :=
  pulseWrite .two 0x04 v s (s.p2.writeControl v)

/-- `W4005` (R213). -/
def execW4005 (v : Byte) (s : State) : Host.Outcome State Fault Refusal :=
  pulseWrite .two 0x05 v s (s.p2.writeSweep v)

/-- `W4006` (R214). -/
def execW4006 (v : Byte) (s : State) : Host.Outcome State Fault Refusal :=
  pulseWrite .two 0x06 v s (s.p2.writeTimerLow v)

/-- `W4007` (R215). -/
def execW4007 (v : Byte) (s : State) : Host.Outcome State Fault Refusal :=
  pulseWrite .two 0x07 v s (s.p2.writeTimerHigh s.cfg v)

end Sys2Proof.Machine
end

