-- ==== Sys2Proof/Machine/Triangle.lean ====
section
/-! DEFINITION. The triangle channel (R240 to R250) and `W4008` to `W400B`. -/
namespace Sys2Proof.Machine

/-- `writeControl` (R242). -/
def Triangle.writeControl (t : Triangle) (v : Byte) : Triangle :=
  { t with control := Operand.triControl v, linReloadVal := Operand.triReload v }

/-- The timer's low byte (R243). -/
def Triangle.writeTimerLow (t : Triangle) (v : Byte) : Triangle :=
  { t with period := Operand.periodLow t.period v }

/-- `writeTimerHigh` (R244): length load if enabled, period high bits, linear reload armed; the position stays. -/
def Triangle.writeTimerHigh (t : Triangle) (cfg : Cfg) (v : Byte) : Triangle :=
  { t with
    length := Operand.loadedLength cfg t.enabled v t.length
    period := Operand.periodHigh t.period v
    linReload := true }

/-- `setEnabled` (R372). Log 18. -/
def Triangle.setEnabled (t : Triangle) (e : Bool) : Triangle :=
  { t with enabled := e, length := if e then t.length else 0 }

/-- `tri.clockLinearCounter()` (R246). -/
def Triangle.clockLinearCounter (t : Triangle) : Triangle :=
  if t.linReload then { t with linear := t.linReloadVal, linReload := t.control }
  else if t.linear = 0 then t
  else { t with linear := t.linear - 1 }

/-- `tri.clockLength()` (R247). -/
def Triangle.clockLength (t : Triangle) : Triangle :=
  { t with length := Machine.clockLength t.control t.length }

/-- `tri.clockTimer()` (R248): the timer always runs; the position advances only while both counters are non-zero. -/
def Triangle.clockTimer (t : Triangle) : Triangle :=
  if t.timer = 0 then
    { t with timer := t.period, pos := if t.linear ≠ 0 ∧ t.length ≠ 0 then t.pos + 1 else t.pos }
  else { t with timer := t.timer - 1 }

/-- `tri.output()` (R249). -/
def Triangle.output (t : Triangle) (cfg : Cfg) : BitVec 4 :=
  if !t.enabled then 0
  else if t.length = 0 then 0
  else if t.linear = 0 then 0
  else if t.period.toNat < cfg.triMuteLow then 0
  else Operand.triLevel cfg t.pos

/-- `W4008` (R242). -/
def execW4008 (v : Byte) (s : State) : Host.Outcome State Fault Refusal :=
  answer ((s.latchWrite 0x08 v).withTri (s.tri.writeControl v)) .nothing

/-- `W4009` (R245): unused. -/
def execW4009 (v : Byte) (s : State) : Host.Outcome State Fault Refusal := shadowOnlyWrite 0x09 v s

/-- `W400A` (R243). -/
def execW400A (v : Byte) (s : State) : Host.Outcome State Fault Refusal :=
  answer ((s.latchWrite 0x0A v).withTri (s.tri.writeTimerLow v)) .nothing

/-- `W400B` (R244). -/
def execW400B (v : Byte) (s : State) : Host.Outcome State Fault Refusal :=
  answer ((s.latchWrite 0x0B v).withTri (s.tri.writeTimerHigh s.cfg v)) .nothing

end Sys2Proof.Machine
end

