-- ==== Sys2Proof/Machine/Status.lean ====
section
/-! DEFINITION. The status register (R371 to R377), the reads of the unreadable offsets (R376), the offsets D0 does not list
(R134) and the observation ports `SAMPLE` and `IRQ` (R384, R385). -/
namespace Sys2Proof.Machine

/-- The enables of `$4015` (R371 to R373). -/
def State.setEnables (s : State) (v : Byte) : State :=
  ((((s.withDmc (s.dmc.clearIrq.setEnabled s.cfg (Operand.enableDmc v))).withP1
    (s.p1.setEnabled (Operand.enableP1 v))).withP2
    (s.p2.setEnabled (Operand.enableP2 v))).withTri
    (s.tri.setEnabled (Operand.enableTri v))).withNoi
    (s.noi.setEnabled (Operand.enableNoi v))

/-- `W4015` (R371). -/
def execW4015 (v : Byte) (s : State) : Host.Outcome State Fault Refusal :=
  answer ((s.latchWrite 0x15 v).setEnables v) .nothing

/-- `RD4015` (R375): the status byte, then the frame interrupt is cleared. -/
def execRd4015 (s : State) : Host.Outcome State Fault Refusal :=
  answer (s.withFs s.fs.clearIrqFlag) (.byte s.statusByte)

/-- `W4014` (R134, R376): not listed by D0. -/
def execW4014 (v : Byte) (s : State) : Host.Outcome State Fault Refusal := shadowOnlyWrite 0x14 v s

/-- `W4016` (R134, R376): not listed by D0. -/
def execW4016 (v : Byte) (s : State) : Host.Outcome State Fault Refusal := shadowOnlyWrite 0x16 v s

/-- `SAMPLE` (R384). -/
def execSample (s : State) : Host.Outcome State Fault Refusal := answer s (.sample s.sample)

/-- `IRQ` (R385): both flags and their OR. -/
def execIrq (s : State) : Host.Outcome State Fault Refusal :=
  answer s (.interrupts s.fs.irq s.dmc.irq s.irqLine)

/-! The reads of the unreadable offsets (R88, R376). -/

def execRd4000 (s : State) : Host.Outcome State Fault Refusal := openBusRead 0x00 s
def execRd4001 (s : State) : Host.Outcome State Fault Refusal := openBusRead 0x01 s
def execRd4002 (s : State) : Host.Outcome State Fault Refusal := openBusRead 0x02 s
def execRd4003 (s : State) : Host.Outcome State Fault Refusal := openBusRead 0x03 s
def execRd4004 (s : State) : Host.Outcome State Fault Refusal := openBusRead 0x04 s
def execRd4005 (s : State) : Host.Outcome State Fault Refusal := openBusRead 0x05 s
def execRd4006 (s : State) : Host.Outcome State Fault Refusal := openBusRead 0x06 s
def execRd4007 (s : State) : Host.Outcome State Fault Refusal := openBusRead 0x07 s
def execRd4008 (s : State) : Host.Outcome State Fault Refusal := openBusRead 0x08 s
def execRd4009 (s : State) : Host.Outcome State Fault Refusal := openBusRead 0x09 s
def execRd400A (s : State) : Host.Outcome State Fault Refusal := openBusRead 0x0A s
def execRd400B (s : State) : Host.Outcome State Fault Refusal := openBusRead 0x0B s
def execRd400C (s : State) : Host.Outcome State Fault Refusal := openBusRead 0x0C s
def execRd400D (s : State) : Host.Outcome State Fault Refusal := openBusRead 0x0D s
def execRd400E (s : State) : Host.Outcome State Fault Refusal := openBusRead 0x0E s
def execRd400F (s : State) : Host.Outcome State Fault Refusal := openBusRead 0x0F s
def execRd4010 (s : State) : Host.Outcome State Fault Refusal := openBusRead 0x10 s
def execRd4011 (s : State) : Host.Outcome State Fault Refusal := openBusRead 0x11 s
def execRd4012 (s : State) : Host.Outcome State Fault Refusal := openBusRead 0x12 s
def execRd4013 (s : State) : Host.Outcome State Fault Refusal := openBusRead 0x13 s
def execRd4014 (s : State) : Host.Outcome State Fault Refusal := openBusRead 0x14 s
def execRd4016 (s : State) : Host.Outcome State Fault Refusal := openBusRead 0x16 s
def execRd4017 (s : State) : Host.Outcome State Fault Refusal := openBusRead 0x17 s

end Sys2Proof.Machine
end

