-- ==== Sys2Proof/Machine/Clock.lean ====
section
/-! DEFINITION. The stimuli `CLOCK` (R378 to R383) and `RESET` (R386). -/
namespace Sys2Proof.Machine

/-- `quarterFrame()` (R380). -/
def State.quarterFrame (s : State) : State :=
  (((s.withP1 s.p1.clockEnvelope).withP2 s.p2.clockEnvelope).withNoi s.noi.clockEnvelope).withTri
    s.tri.clockLinearCounter

/-- A pulse channel at a half-frame (R381). -/
def Pulse.halfFrame (p : Pulse) (cfg : Cfg) (extra : Nat) : Pulse := p.clockLength.clockSweep cfg extra

/-- `halfFrame()` (R381). -/
def State.halfFrame (s : State) : State :=
  (((s.withP1 (s.p1.halfFrame s.cfg (Config.sweepExtra .one))).withP2 (s.p2.halfFrame s.cfg (Config.sweepExtra .two))).withTri
    s.tri.clockLength).withNoi s.noi.clockLength

/-- The frame events of a CLOCK, dispatched (R378 to R381). -/
def State.frameEvents (s : State) (ev : FrameEvents) : State :=
  let q := if ev.quarter then s.quarterFrame else s
  if ev.half then q.halfFrame else q

/-- The channel timers (R382): the triangle's on every CLOCK, the others' in their domain. Log 14. -/
def State.clockTimers (s : State) : State :=
  ((((s.withTri s.tri.clockTimer).withP1
    (if s.timerRuns s.cfg.apuDomain.pulse then s.p1.clockTimer else s.p1)).withP2
    (if s.timerRuns s.cfg.apuDomain.pulse then s.p2.clockTimer else s.p2)).withNoi
    (if s.timerRuns s.cfg.apuDomain.noise then s.noi.clockTimer s.cfg else s.noi)).withDmc
    (if s.timerRuns s.cfg.apuDomain.dmc then s.dmc.clock s.cfg else s.dmc)

/-- The five outputs, mixed (R320, R383). -/
def State.mixed (s : State) : Rat :=
  mix s.cfg (s.p1.output s.cfg) (s.p2.output s.cfg) (s.tri.output s.cfg) s.noi.output s.dmc.output

/-- The sample is mixed, kept and pushed to the resampler (R383). -/
def State.produceSample (s : State) : State :=
  (s.withSample (some s.mixed)).withRs (s.rs.push s.cfg.rsOutCap s.mixed)

/-- The frame sequencer's clock and the dispatch of its events (R378, R379). -/
def State.clockFrame (s : State) : State :=
  let r := s.fs.clock s.cfg s.cyc
  (s.withFs r.2).frameEvents r.1

/-- One cycle (R378). -/
def State.clock (s : State) : State := s.clockFrame.clockTimers.produceSample.withCyc (s.cyc + 1)

/-- `CLOCK` (R378). -/
def execClock (s : State) : Host.Outcome State Fault Refusal := answer s.clock .nothing

/-- `RESET` (R386): every field to its reset value; the configuration and the stimuli still to come are no fields of the
block. -/
def execReset (s : State) : Host.Outcome State Fault Refusal :=
  answer ((State.resetOf s.cfg).withQueue s.queue) .nothing

end Sys2Proof.Machine
end

