-- ==== Sys2Proof/Machine/Dispatch.lean ====
section
/-! DEFINITION. The meaning of each stimulus (R110, R370): one arm per constructor of Instr. -/
namespace Sys2Proof.Machine

/-- The meaning of a stimulus. -/
def exec (i : Instr) (s : State) : Host.Outcome State Fault Refusal :=
  match i with
  | .w4000 v => Sys2Proof.Machine.execW4000 v s
  | .w4001 v => Sys2Proof.Machine.execW4001 v s
  | .w4002 v => Sys2Proof.Machine.execW4002 v s
  | .w4003 v => Sys2Proof.Machine.execW4003 v s
  | .w4004 v => Sys2Proof.Machine.execW4004 v s
  | .w4005 v => Sys2Proof.Machine.execW4005 v s
  | .w4006 v => Sys2Proof.Machine.execW4006 v s
  | .w4007 v => Sys2Proof.Machine.execW4007 v s
  | .w4008 v => Sys2Proof.Machine.execW4008 v s
  | .w4009 v => Sys2Proof.Machine.execW4009 v s
  | .w400A v => Sys2Proof.Machine.execW400A v s
  | .w400B v => Sys2Proof.Machine.execW400B v s
  | .w400C v => Sys2Proof.Machine.execW400C v s
  | .w400D v => Sys2Proof.Machine.execW400D v s
  | .w400E v => Sys2Proof.Machine.execW400E v s
  | .w400F v => Sys2Proof.Machine.execW400F v s
  | .w4010 v => Sys2Proof.Machine.execW4010 v s
  | .w4011 v => Sys2Proof.Machine.execW4011 v s
  | .w4012 v => Sys2Proof.Machine.execW4012 v s
  | .w4013 v => Sys2Proof.Machine.execW4013 v s
  | .w4014 v => Sys2Proof.Machine.execW4014 v s
  | .w4015 v => Sys2Proof.Machine.execW4015 v s
  | .w4016 v => Sys2Proof.Machine.execW4016 v s
  | .w4017 v => Sys2Proof.Machine.execW4017 v s
  | .rd4000 => Sys2Proof.Machine.execRd4000 s
  | .rd4001 => Sys2Proof.Machine.execRd4001 s
  | .rd4002 => Sys2Proof.Machine.execRd4002 s
  | .rd4003 => Sys2Proof.Machine.execRd4003 s
  | .rd4004 => Sys2Proof.Machine.execRd4004 s
  | .rd4005 => Sys2Proof.Machine.execRd4005 s
  | .rd4006 => Sys2Proof.Machine.execRd4006 s
  | .rd4007 => Sys2Proof.Machine.execRd4007 s
  | .rd4008 => Sys2Proof.Machine.execRd4008 s
  | .rd4009 => Sys2Proof.Machine.execRd4009 s
  | .rd400A => Sys2Proof.Machine.execRd400A s
  | .rd400B => Sys2Proof.Machine.execRd400B s
  | .rd400C => Sys2Proof.Machine.execRd400C s
  | .rd400D => Sys2Proof.Machine.execRd400D s
  | .rd400E => Sys2Proof.Machine.execRd400E s
  | .rd400F => Sys2Proof.Machine.execRd400F s
  | .rd4010 => Sys2Proof.Machine.execRd4010 s
  | .rd4011 => Sys2Proof.Machine.execRd4011 s
  | .rd4012 => Sys2Proof.Machine.execRd4012 s
  | .rd4013 => Sys2Proof.Machine.execRd4013 s
  | .rd4014 => Sys2Proof.Machine.execRd4014 s
  | .rd4015 => Sys2Proof.Machine.execRd4015 s
  | .rd4016 => Sys2Proof.Machine.execRd4016 s
  | .rd4017 => Sys2Proof.Machine.execRd4017 s
  | .clock => Sys2Proof.Machine.execClock s
  | .reset => Sys2Proof.Machine.execReset s
  | .dmaReq => Sys2Proof.Machine.execDmaReq s
  | .dmaLoad b => Sys2Proof.Machine.execDmaLoad b s
  | .sample => Sys2Proof.Machine.execSample s
  | .irq => Sys2Proof.Machine.execIrq s
  | .setRate r => Sys2Proof.Machine.execSetRate r s
  | .rsPull => Sys2Proof.Machine.execRsPull s
  | .rbWrite samples => Sys2Proof.Machine.execRbWrite samples s
  | .rbRead count => Sys2Proof.Machine.execRbRead count s

end Sys2Proof.Machine
end

