-- ==== Sys2Proof/Machine/Step.lean ====
section
/-! DEFINITION. One step of the machine, and where its next stimulus stands. -/
namespace Sys2Proof.Machine

/-- One step: take the next stimulus the agents have issued, decode it and run it. Where none is issued all state holds
(R417); a word that spells no stimulus has no step (R136). -/
def step (s : State) : Host.Outcome State Fault Refusal :=
  match s.fetch with
  | none => .next s
  | some (st, taken) =>
    match decode st with
    | .ok i => exec i taken
    | .error reason => .refused (.invalidStimulus reason)

/-- The state with the instruction whose bits are `w` as the next stimulus to be taken. Log 5. -/
def State.withFetchWord (s : State) (nbits w : Nat) : State := s.issueFirst (tableStimulus nbits w)

end Sys2Proof.Machine
end

