-- ==== Sys2Proof/Safety.lean ====
section
/-! DEFINITION. The terms claims use: bit fields as numbers, the agents' contract, what a bus write leaves, the state
invariants, repeated CLOCKs, and the ring buffer as a queue. -/
namespace Sys2Proof

/-- The literals have the values D0 prints (R7). -/
abbrev Cfg.Source (cfg : Cfg) : Prop := cfg.toLiterals = Config.literals

/-- What R7 asks of the parameters: D0's literals, a positive base step, positive capacities and report interval. -/
abbrev Cfg.Valid (cfg : Cfg) : Prop :=
  cfg.Source ∧ 0 < cfg.fIn ∧ 0 < cfg.rsOutCap ∧ 0 < cfg.rbCap ∧ 0 < cfg.reportEvery

end Sys2Proof

namespace Sys2Proof.Machine

/-! Notation of the spec. -/

/-- `v[hi:lo]` as the number R9 says it is. -/
def bitField (v : Byte) (hi lo : Nat) : Nat := v.toNat / 2 ^ lo % 2 ^ (hi - lo + 1)

/-- `v[i] = 1` (R9). -/
def bitSet (v : Byte) (i : Nat) : Bool := bitField v i i == 1

/-! The agents' contract (R101, R401). -/

/-- What the agent must see to before it issues the stimulus: a pending request for `DMA_LOAD`, a count that is not negative
for `RB_READ`; nothing for any other. -/
def contractKept (i : Instr) (s : State) : Bool :=
  match i with
  | .dmaLoad _ => s.dmc.request.isSome
  | .rbRead count => decide (0 ≤ count)
  | _ => true

/-- The stimulus ran. -/
def Completes (o : Host.Outcome State Fault Refusal) : Prop := ∃ t, o = .next t

/-! Frames. -/

/-- The parts that no bus transaction changes: the configuration, the stimuli to come, the cycle count, the sample, the
resampler and the ring buffer. -/
def SamePath (s t : State) : Prop :=
  t.cfg = s.cfg ∧ t.queue = s.queue ∧ t.cyc = s.cyc ∧ t.sample = s.sample ∧ t.rs = s.rs ∧ t.rb = s.rb

/-- The shadow memory after a bus write of `v` to `offset` (R20, R82): that byte is `v`, every other byte of the register
space is as before, and the latch holds `v`. -/
def Latched (offset : Nat) (v : Byte) (s t : State) : Prop :=
  t.shadow.read (busAddress offset) = v ∧
    (∀ a, a ≠ busAddress offset → t.shadow.read a = s.shadow.read a) ∧ t.busLatch = v

/-- The shadow memory and the latch are as before. -/
def SameShadow (s t : State) : Prop := (∀ a, t.shadow.read a = s.shadow.read a) ∧ t.busLatch = s.busLatch

/-- The units a bus transaction can change. -/
inductive BlockUnit where
  | fs | p1 | p2 | tri | noi | dmc
  deriving DecidableEq, Repr

/-- Every unit but the ones named is as before. -/
def SameUnitsExcept (changed : List BlockUnit) (s t : State) : Prop :=
  (.fs ∉ changed → t.fs = s.fs) ∧ (.p1 ∉ changed → t.p1 = s.p1) ∧ (.p2 ∉ changed → t.p2 = s.p2) ∧
    (.tri ∉ changed → t.tri = s.tri) ∧ (.noi ∉ changed → t.noi = s.noi) ∧ (.dmc ∉ changed → t.dmc = s.dmc)

/-- The bus write `i` of `v` to `offset` runs in `s`, returns nothing, stores the byte, changes no unit but `changed` and
nothing else of the block, and what it leaves meets `R`. -/
def WriteCompletes (i : Instr) (offset : Nat) (v : Byte) (changed : List BlockUnit) (s : State) (R : State → Prop) : Prop :=
  ∃ t, exec i s = .next t ∧ t.response = .nothing ∧ Latched offset v s t ∧ SamePath s t ∧
    SameUnitsExcept changed s t ∧ R t

/-- The stimulus `i` runs in `s`, returns `r`, and changes nothing. -/
def Observes (i : Instr) (s : State) (r : Response) : Prop :=
  ∃ t, exec i s = .next t ∧ t.response = r ∧ SameShadow s t ∧ SamePath s t ∧ SameUnitsExcept [] s t

/-! Invariants (R39, R354). -/

/-- A pending `$4017` write (R39 (i), R156): issued not after now, with the delay of its cycle, and not yet past due. -/
abbrev Pending.Inv (p : Pending) (cfg : Cfg) (cyc : Nat) : Prop :=
  p.issue ≤ cyc ∧ p.delay = writeDelay cfg p.issue ∧ cyc ≤ p.issue + p.delay

/-- Frame sequencer (R39 (i), (j)). -/
abbrev FrameSeq.Inv (fs : FrameSeq) (cfg : Cfg) (cyc : Nat) : Prop := fs.base ≤ cyc ∧ ∀ p ∈ fs.pend, p.Inv cfg cyc

/-- Noise channel (R39 (a)). -/
abbrev Noise.Inv (n : Noise) : Prop := n.lfsr ≠ 0

/-- DMC (R39 (c), (d), (e), R31's range of the byte counter). -/
abbrev Dmc.Inv (d : Dmc) : Prop :=
  0x8000 ≤ d.curAddr.toNat ∧ d.bits.toNat ≤ 8 ∧ (d.active = true ↔ 0 < d.bytes.toNat) ∧ d.bytes.toNat ≤ 4081

/-- Resampler (R33, R39 (g), (h), R335). -/
abbrev Resampler.Inv (rs : Resampler) (cfg : Cfg) : Prop :=
  rs.n ≤ 4 ∧ 0 ≤ rs.pos ∧ cfg.baseStep * (995 / 1000) ≤ rs.step ∧ rs.step ≤ cfg.baseStep * (1005 / 1000) ∧
    rs.out.length ≤ cfg.rsOutCap

/-- Ring buffer (R34, R39 (g), R354). -/
abbrev RingBuffer.Inv (rb : RingBuffer) (cfg : Cfg) : Prop :=
  rb.buf.length = cfg.rbCap ∧ rb.wr < cfg.rbCap ∧ rb.rd < cfg.rbCap ∧ rb.occ ≤ cfg.rbCap ∧
    rb.wr = (rb.rd + rb.occ) % cfg.rbCap ∧ rb.calls < cfg.reportEvery

/-- The current sample lies in `[-1, 1)` (R24, R324). -/
abbrev SampleInv (x : Option Rat) : Prop := ∀ y ∈ x, -1 ≤ y ∧ y < 1

/-- The invariant of the block: the parameters are as R7 asks, the shadow memory is canonical, and every unit's part holds. -/
abbrev State.Inv (s : State) : Prop :=
  s.cfg.Valid ∧ s.shadow.wf = true ∧ SampleInv s.sample ∧ s.fs.Inv s.cfg s.cyc ∧ s.noi.Inv ∧ s.dmc.Inv ∧
    s.rs.Inv s.cfg ∧ s.rb.Inv s.cfg

/-! Repetition. -/

/-- `n` CLOCKs in a row. -/
def State.clocks : Nat → State → State
  | 0, s => s
  | n + 1, s => State.clocks n s.clock

/-- A list of samples pushed in order. -/
def Resampler.pushAll (cap : Nat) : List Rat → Resampler → Resampler
  | [], rs => rs
  | x :: xs, rs => Resampler.pushAll cap xs (rs.push cap x)

/-! The ring buffer as a queue (R350). -/

/-- The samples buffered, oldest first. -/
def RingBuffer.contents (rb : RingBuffer) (cap : Nat) : List Rat :=
  (List.range rb.occ).map fun i => rb.buf.getD ((rb.rd + i) % cap) 0

end Sys2Proof.Machine
end

