-- ==== Sys2Proof/Certificates/Slice0/Obligations.lean ====
section
/-! DEFINITION. The statements about the block, from the spec's numbered rules. -/

namespace Sys2Proof.Claims
open Sys2Proof.Machine

/-! What a write loads, field by field; `p` is the channel before, `q` after. -/

/-- Pulse offset 0 (R113, R212): the halt flag is bit 5 by the spec's decision D15 (log 15). -/
def PulseControlLoaded (v : Byte) (p q : Pulse) : Prop :=
  q.duty.toNat = bitField v 7 6 ∧ q.halt = bitSet v 5 ∧ q.env.loop = bitSet v 5 ∧ q.env.constVol = bitSet v 4 ∧
    q.env.vol.toNat = bitField v 3 0 ∧
    q.env.decay = p.env.decay ∧ q.env.div = p.env.div ∧ q.env.start = p.env.start ∧
    q.enabled = p.enabled ∧ q.pos = p.pos ∧ q.period = p.period ∧ q.timer = p.timer ∧ q.length = p.length ∧
    q.sweep = p.sweep

/-- Pulse offset 1 (R114, R191, R213). -/
def PulseSweepLoaded (v : Byte) (p q : Pulse) : Prop :=
  q.sweep.enable = bitSet v 7 ∧ q.sweep.period.toNat = bitField v 6 4 ∧ q.sweep.negate = bitSet v 3 ∧
    q.sweep.shift.toNat = bitField v 2 0 ∧ q.sweep.reload = true ∧ q.sweep.div = p.sweep.div ∧
    q.enabled = p.enabled ∧ q.duty = p.duty ∧ q.pos = p.pos ∧ q.period = p.period ∧ q.timer = p.timer ∧
    q.length = p.length ∧ q.halt = p.halt ∧ q.env = p.env

/-- Pulse offset 2 (R115, R131, R214): the timer is not reloaded (D24, log 14). -/
def PulseTimerLowLoaded (v : Byte) (p q : Pulse) : Prop :=
  q.period.toNat = p.period.toNat / 256 * 256 + v.toNat ∧
    q.enabled = p.enabled ∧ q.duty = p.duty ∧ q.pos = p.pos ∧ q.timer = p.timer ∧ q.length = p.length ∧
    q.halt = p.halt ∧ q.env = p.env ∧ q.sweep = p.sweep

/-- The length counter after a write that may load it (R216): the table's entry for bits 7:3 while enabled, else as it was.
The bit positions are the spec's decision D12 (log 15). -/
def LengthLoaded (cfg : Cfg) (v : Byte) (enabled : Bool) (before after : BitVec 8) : Prop :=
  (enabled = true → cfg.lengthTable.toList[bitField v 7 3]? = some after) ∧ (enabled = false → after = before)

/-- Pulse offset 3 (R116, R215). -/
def PulseTimerHighLoaded (cfg : Cfg) (v : Byte) (p q : Pulse) : Prop :=
  LengthLoaded cfg v p.enabled p.length q.length ∧ q.period.toNat = bitField v 2 0 * 256 + p.period.toNat % 256 ∧
    q.pos = 0 ∧ q.env.start = true ∧
    q.env.decay = p.env.decay ∧ q.env.div = p.env.div ∧ q.env.loop = p.env.loop ∧
    q.env.constVol = p.env.constVol ∧ q.env.vol = p.env.vol ∧
    q.enabled = p.enabled ∧ q.duty = p.duty ∧ q.timer = p.timer ∧ q.halt = p.halt ∧ q.sweep = p.sweep

/-- `$4008` (R117, R242). -/
def TriangleControlLoaded (v : Byte) (p q : Triangle) : Prop :=
  q.control = bitSet v 7 ∧ q.linReloadVal.toNat = bitField v 6 0 ∧
    q.enabled = p.enabled ∧ q.period = p.period ∧ q.timer = p.timer ∧ q.pos = p.pos ∧ q.length = p.length ∧
    q.linear = p.linear ∧ q.linReload = p.linReload

/-- `$400A` (R118, R243), by the spec's decision D17 (log 15). -/
def TriangleTimerLowLoaded (v : Byte) (p q : Triangle) : Prop :=
  q.period.toNat = p.period.toNat / 256 * 256 + v.toNat ∧
    q.enabled = p.enabled ∧ q.timer = p.timer ∧ q.pos = p.pos ∧ q.length = p.length ∧ q.control = p.control ∧
    q.linReloadVal = p.linReloadVal ∧ q.linear = p.linear ∧ q.linReload = p.linReload

/-- `$400B` (R119, R244): the position stays. -/
def TriangleTimerHighLoaded (cfg : Cfg) (v : Byte) (p q : Triangle) : Prop :=
  LengthLoaded cfg v p.enabled p.length q.length ∧ q.period.toNat = bitField v 2 0 * 256 + p.period.toNat % 256 ∧
    q.linReload = true ∧
    q.enabled = p.enabled ∧ q.timer = p.timer ∧ q.pos = p.pos ∧ q.control = p.control ∧
    q.linReloadVal = p.linReloadVal ∧ q.linear = p.linear

/-- `$400C` (R120, R261): bits 7:6 ignored; the halt flag by D15 (log 15). -/
def NoiseControlLoaded (v : Byte) (p q : Noise) : Prop :=
  q.halt = bitSet v 5 ∧ q.env.loop = bitSet v 5 ∧ q.env.constVol = bitSet v 4 ∧ q.env.vol.toNat = bitField v 3 0 ∧
    q.env.decay = p.env.decay ∧ q.env.div = p.env.div ∧ q.env.start = p.env.start ∧
    q.enabled = p.enabled ∧ q.mode = p.mode ∧ q.periodIdx = p.periodIdx ∧ q.timer = p.timer ∧ q.lfsr = p.lfsr ∧
    q.length = p.length

/-- `$400E` (R121, R263). -/
def NoisePeriodLoaded (v : Byte) (p q : Noise) : Prop :=
  q.mode = bitSet v 7 ∧ q.periodIdx.toNat = bitField v 3 0 ∧
    q.enabled = p.enabled ∧ q.timer = p.timer ∧ q.lfsr = p.lfsr ∧ q.length = p.length ∧ q.halt = p.halt ∧ q.env = p.env

/-- `$400F` (R122, R264): the restart is armed whether or not the channel is enabled. -/
def NoiseLengthLoaded (cfg : Cfg) (v : Byte) (p q : Noise) : Prop :=
  LengthLoaded cfg v p.enabled p.length q.length ∧ q.env.start = true ∧
    q.env.decay = p.env.decay ∧ q.env.div = p.env.div ∧ q.env.loop = p.env.loop ∧
    q.env.constVol = p.env.constVol ∧ q.env.vol = p.env.vol ∧
    q.enabled = p.enabled ∧ q.mode = p.mode ∧ q.periodIdx = p.periodIdx ∧ q.timer = p.timer ∧ q.lfsr = p.lfsr ∧
    q.halt = p.halt

/-- The DMC's fields other than those four writes load. -/
def DmcPlaybackSame (p q : Dmc) : Prop :=
  q.timer = p.timer ∧ q.curAddr = p.curAddr ∧ q.bytes = p.bytes ∧ q.shift = p.shift ∧ q.bits = p.bits ∧
    q.active = p.active

/-- `$4010` (R123, R281): a clear bit 7 clears the interrupt flag too. -/
def DmcControlLoaded (v : Byte) (p q : Dmc) : Prop :=
  q.irqEnable = bitSet v 7 ∧ q.irq = (p.irq && bitSet v 7) ∧ q.loop = bitSet v 6 ∧ q.rateIdx.toNat = bitField v 3 0 ∧
    q.out = p.out ∧ q.addrByte = p.addrByte ∧ q.lenByte = p.lenByte ∧ DmcPlaybackSame p q

/-- The DMC's control fields. -/
def DmcControlSame (p q : Dmc) : Prop :=
  q.irqEnable = p.irqEnable ∧ q.irq = p.irq ∧ q.loop = p.loop ∧ q.rateIdx = p.rateIdx

/-- A channel's `enabled` flag and length counter after `$4015` (R372): clearing the bit clears the counter (D18, log 18). -/
def Enabled (bit : Bool) (length : BitVec 8) (enabled' : Bool) (length' : BitVec 8) : Prop :=
  enabled' = bit ∧ length' = (if bit then length else 0)

/-- The DMC after `$4015` (R371, R373, R286, R287): the interrupt flag cleared; started if bit 4 is set and no byte remains;
stopped if it is clear (D18, log 18). The address and the length are those of R7's literals. -/
def DmcSwitched (bit : Bool) (p q : Dmc) : Prop :=
  q.irq = false ∧
    (bit = true → p.bytes = 0 →
      q.curAddr.toNat = 0xC000 + p.addrByte.toNat * 64 ∧ q.bytes.toNat = p.lenByte.toNat * 16 + 1 ∧ q.active = true) ∧
    (bit = true → p.bytes ≠ 0 → q.curAddr = p.curAddr ∧ q.bytes = p.bytes ∧ q.active = p.active) ∧
    (bit = false → q.curAddr = p.curAddr ∧ q.bytes = 0 ∧ q.active = false) ∧
    q.irqEnable = p.irqEnable ∧ q.loop = p.loop ∧ q.rateIdx = p.rateIdx ∧ q.timer = p.timer ∧ q.out = p.out ∧
    q.addrByte = p.addrByte ∧ q.lenByte = p.lenByte ∧ q.shift = p.shift ∧ q.bits = p.bits

/-- The writes of the 23 offsets that have an open-bus read, with that read. -/
def openBusPairs (v : Byte) : List (Instr × Instr) :=
  [(.w4000 v, .rd4000), (.w4001 v, .rd4001), (.w4002 v, .rd4002), (.w4003 v, .rd4003), (.w4004 v, .rd4004),
   (.w4005 v, .rd4005), (.w4006 v, .rd4006), (.w4007 v, .rd4007), (.w4008 v, .rd4008), (.w4009 v, .rd4009),
   (.w400A v, .rd400A), (.w400B v, .rd400B), (.w400C v, .rd400C), (.w400D v, .rd400D), (.w400E v, .rd400E),
   (.w400F v, .rd400F), (.w4010 v, .rd4010), (.w4011 v, .rd4011), (.w4012 v, .rd4012), (.w4013 v, .rd4013),
   (.w4014 v, .rd4014), (.w4016 v, .rd4016), (.w4017 v, .rd4017)]

/-- The 23 open-bus reads with their offsets (R88). -/
def openBusReads : List (Instr × Nat) :=
  [(.rd4000, 0x00), (.rd4001, 0x01), (.rd4002, 0x02), (.rd4003, 0x03), (.rd4004, 0x04), (.rd4005, 0x05),
   (.rd4006, 0x06), (.rd4007, 0x07), (.rd4008, 0x08), (.rd4009, 0x09), (.rd400A, 0x0A), (.rd400B, 0x0B),
   (.rd400C, 0x0C), (.rd400D, 0x0D), (.rd400E, 0x0E), (.rd400F, 0x0F), (.rd4010, 0x10), (.rd4011, 0x11),
   (.rd4012, 0x12), (.rd4013, 0x13), (.rd4014, 0x14), (.rd4016, 0x16), (.rd4017, 0x17)]

/-- The values R7 gives the configuration: D0's literals; the spec's decisions D5, D7, D11 to D14 and D20 (logs 9, 10, 14, 15);
what R7 leaves OPEN is positive only (log 4). -/
def HasTheListedValues (cfg : Cfg) : Prop :=
  (cfg.steps4 = [7459, 14913, 22371, 29829] ∧ cfg.steps5 = [7459, 14913, 22371, 29829, 37281] ∧
    cfg.period4 = 29830 ∧ cfg.half4 = [2, 4] ∧ cfg.half5 = [2, 4, 5] ∧ cfg.fsDelayOdd = 3 ∧ cfg.fsDelayEven = 4) ∧
  cfg.triSeq.toList = [15, 14, 13, 12, 11, 10, 9, 8, 7, 6, 5, 4, 3, 2, 1, 0,
    0, 1, 2, 3, 4, 5, 6, 7, 8, 9, 10, 11, 12, 13, 14, 15] ∧
  (cfg.pulseNum = 9588 / 100 ∧ cfg.pulseDenK = 8128 ∧ cfg.pulseDenC = 100 ∧ cfg.tndNum = 15979 / 100 ∧
    cfg.tndDenC = 100 ∧ cfg.tndTri = 8227 ∧ cfg.tndNoise = 12241 ∧ cfg.tndDmc = 22638) ∧
  (cfg.dmcAddrBase = 0xC000 ∧ cfg.dmcAddrScale = 64 ∧ cfg.dmcLenScale = 16 ∧ cfg.dmcLenBias = 1 ∧
    cfg.dmcWrapFrom = 0xFFFF ∧ cfg.dmcWrapTo = 0x8000) ∧
  (cfg.sweepMuteLow = 8 ∧ cfg.sweepMuteHigh = 0x7FF ∧ cfg.triMuteLow = 2 ∧
    cfg.ratioMin = 995 / 1000 ∧ cfg.ratioMax = 1005 / 1000) ∧
  (cfg.period5 = 37282 ∧ cfg.apuPhase = 0 ∧ cfg.apuDomain = ⟨true, true, true⟩ ∧ cfg.openBusMode = .perOffset) ∧
  cfg.dutyTable.toList = [0b01000000, 0b01100000, 0b01111000, 0b10011111] ∧
  cfg.lengthTable.toList = [10, 254, 20, 2, 40, 4, 80, 6, 160, 8, 60, 10, 14, 12, 26, 14,
    12, 16, 24, 18, 48, 20, 96, 22, 192, 24, 72, 26, 16, 28, 32, 30] ∧
  cfg.noisePeriod.toList = [4, 8, 16, 32, 64, 96, 128, 160, 202, 254, 380, 508, 762, 1016, 2034, 4068] ∧
  cfg.dmcRate.toList = [428, 380, 340, 320, 286, 254, 226, 214, 190, 160, 142, 128, 106, 84, 72, 54] ∧
  (0 < cfg.fIn ∧ 0 < cfg.rsOutCap ∧ 0 < cfg.rbCap ∧ 0 < cfg.reportEvery)

/-- A pending `$4017` write takes effect in the CLOCK numbered `c` (R151, R157). -/
def WriteDue (fs : FrameSeq) (c : Nat) : Prop := ∃ p ∈ fs.pend, c = p.issue + p.delay

/-- A timer of the domain `halfRate` ticks in the CLOCK that `s` is about to run (R382): one that runs on every CLOCK always,
one of the APU-cycle domain where the cycle's parity is `APU_PHASE` (D7, log 14). -/
abbrev Ticks (s : State) (halfRate : Bool) : Prop := halfRate = false ∨ s.cyc % 2 = s.cfg.apuPhase.val

/-- What every push does to the resampler (R331): the sample goes into the ring's next slot, the other slots stay, the ring
turns by one, the pushes since reset are counted up to 4. -/
def SampleStored (x : Rat) (rs t : Resampler) : Prop :=
  t.ring[rs.idx] = x ∧ (∀ k : Fin 4, k ≠ rs.idx → t.ring[k] = rs.ring[k]) ∧ t.idx.val = (rs.idx.val + 1) % 4 ∧
    t.n = min (rs.n + 1) 4 ∧ t.step = rs.step

/-- What the passes of a push append (R331, R332): the `j`-th one, from 0, interpolates the four samples, oldest first (D33, log
19), at `1 - (pos + 1 - (j + 1) * step) / step`; `pos` and `step` are those before the push, `t` the resampler after it. -/
def passOutputs (t : Resampler) (pos step : Rat) (count : Nat) : List Rat :=
  (List.range count).map fun j : Nat =>
    cubic t.ring[t.idx] t.ring[t.idx + 1] t.ring[t.idx + 2] t.ring[t.idx + 3]
      (1 - (pos + 1 - ((j : Rat) + 1) * step) / step)

/-- The pulses of the CLOCK that `s` is about to run (R151). -/
def eventsOf (s : State) : FrameEvents := (s.fs.clock s.cfg s.cyc).1

/-- Two states agree but for the pending `$4017` write, the shadow memory, the latch and the response. -/
def SameButPending (s t : State) : Prop :=
  t.cfg = s.cfg ∧ t.queue = s.queue ∧ t.cyc = s.cyc ∧ t.sample = s.sample ∧
    t.fs.mode = s.fs.mode ∧ t.fs.inhibit = s.fs.inhibit ∧ t.fs.irq = s.fs.irq ∧ t.fs.base = s.fs.base ∧
    t.p1 = s.p1 ∧ t.p2 = s.p2 ∧ t.tri = s.tri ∧ t.noi = s.noi ∧ t.dmc = s.dmc ∧ t.rs = s.rs ∧ t.rb = s.rb

/-- What the ring buffer is asked for: a batch to write, or a count to read. -/
inductive RingCall where
  | write (samples : List Rat)
  | read (count : Nat)
  deriving DecidableEq, Repr

/-- The stimulus of a ring-buffer call. -/
def RingCall.stimulus : RingCall → Instr
  | .write samples => .rbWrite samples
  | .read count => .rbRead count

/-- A run of ring-buffer calls: from `s` to `t`, having accepted the samples `acc` and delivered the samples `del`, fill
zeros left out. -/
inductive RingRun : State → List RingCall → List Rat → List Rat → State → Prop where
  | done (s : State) : RingRun s [] [] [] s
  | write {s u t : State} {samples : List Rat} {k : Nat} {calls : List RingCall} {acc del : List Rat}
      (h : exec (.rbWrite samples) s = .next u) (hk : u.response = .accepted k) (rest : RingRun u calls acc del t) :
      RingRun s (.write samples :: calls) (samples.take k ++ acc) del t
  | read {s u t : State} {count k : Nat} {out : List Rat} {rep : Option Rat} {calls : List RingCall} {acc del : List Rat}
      (h : exec (.rbRead count) s = .next u) (hk : u.response = .rendered out k rep) (rest : RingRun u calls acc del t) :
      RingRun s (.read count :: calls) acc (out.take k ++ del) t

end Sys2Proof.Claims

open Sys2Proof Sys2Proof.Machine Sys2Proof.Claims

/-! Encoding. -/

/-- The decoder reads back every instruction from its encoding, with every operand at every value (R111, R138). The word is
the spec's own numbering (D2). -/
def Obligations.DecodeReadsBackEncode : Prop := ∀ i : Instr, decode (encode i) = .ok i

/-- A stimulus that decodes is the encoding of what it decodes to: no bit of the word is dropped (R111, R136). -/
def Obligations.EncodeReadsBackDecode : Prop := ∀ (st : Stimulus) (i : Instr), decode st = .ok i → encode i = st

/-- A stimulus decodes exactly if its fields and its payload are well formed (R111, R136, R140). -/
def Obligations.DecodesExactlyTheWellFormed : Prop :=
  ∀ st : Stimulus, (∃ i, decode st = .ok i) ↔ (fieldsOf st.word).wellFormed st.payload = true

/-- Words written out from the spec's table and examples decode to what they stand for (R111, R138). -/
def Obligations.WrittenOutWordsDecode : Prop :=
  decode ⟨0x140150F, .none⟩ = .ok (.w4015 0x0F) ∧
    decode ⟨0b00001_0100000000000000_10111111, .none⟩ = .ok (.w4000 0xBF) ∧
    decode ⟨0x1400B08, .none⟩ = .ok (.w400B 0x08) ∧ decode ⟨0x1400E8F, .none⟩ = .ok (.w400E 0x8F) ∧
    decode ⟨0x1401740, .none⟩ = .ok (.w4017 0x40) ∧ decode ⟨0x0401500, .none⟩ = .ok .rd4015 ∧
    decode ⟨0x0400200, .none⟩ = .ok .rd4002 ∧ decode ⟨0x2000000, .none⟩ = .ok .clock ∧
    decode ⟨0x800000F, .none⟩ = .ok (.dmaLoad 0x0F) ∧ decode ⟨0xE000000, .ratio 1⟩ = .ok (.setRate 1) ∧
    decode ⟨0x10000000, .none⟩ = .ok .rsPull ∧ decode ⟨0x12000000, .samples [1]⟩ = .ok (.rbWrite [1]) ∧
    decode ⟨0x14000000, .count 2⟩ = .ok (.rbRead 2) ∧
    decode ⟨0x1401800, .none⟩ = .error (.addressOutsideWindow 0x4018) ∧
    decode ⟨0x16000000, .none⟩ = .error (.unassignedPort 11)

/-! The step. -/

/-- When the next stimulus decodes, the step is `exec` of it, on the state with the stimulus taken from the queue: the model's
form of the agents' schedule (log 1, log 5). -/
def Obligations.StepRunsTheDecodedStimulus : Prop :=
  ∀ (s : State) (st : Stimulus) (rest : List Stimulus) (i : Instr),
    s.queue = st :: rest → decode st = .ok i → step s = exec i (s.withQueue rest)

/-- A stimulus that decodes to nothing is refused by its reason (R83, R136); with none issued all state holds (R417). -/
def Obligations.StepRefusesTheUndecodedAndIdles : Prop :=
  (∀ (s : State) (st : Stimulus) (rest : List Stimulus) (e : DecodeError),
    s.queue = st :: rest → decode st = .error e → step s = .refused (.invalidStimulus e)) ∧
  (∀ s : State, s.queue = [] → step s = .next s)

/-! Invariants and rules of the whole machine. -/

/-- Every step keeps the invariant of the block (R39, R354 with the widths and ranges of R24 to R34). -/
def Obligations.StepKeepsTheInvariant : Prop := ∀ s t : State, s.Inv → step s = .next t → t.Inv

/-- The state after reset meets the invariant, whatever the parameters the spec leaves open (log 4). The reset values other
than the noise seed and the resampler's are the spec's decision D22 (log 8). -/
def Obligations.ResetMeetsTheInvariant : Prop :=
  State.reset.Inv ∧ ∀ cfg : Cfg, cfg.Valid → (State.resetOf cfg).Inv

/-- No step changes the configuration, which R6 says is no state of the block (log 3); at reset it has the values of R7. -/
def Obligations.ConfigurationNeverChanges : Prop :=
  (∀ s t : State, step s = .next t → t.cfg = s.cfg) ∧ HasTheListedValues State.reset.cfg

/-- No bus transaction and no CLOCK stops the machine, whatever the state and the byte (R17). -/
def Obligations.BusAndClockAlwaysRun : Prop :=
  ∀ (i : Instr) (s : State), i.agent = .bus ∨ i.agent = .clk → Completes (exec i s)

/-- A stimulus faults exactly if its agent broke the contract, under the name of what was broken, and none is refused (R296,
R355, R401; the spec's decisions D30, D40, log 6). -/
def Obligations.FaultsExactlyOnABrokenContract : Prop :=
  (∀ (i : Instr) (s : State),
    ((∃ f, exec i s = .fault f) ↔ contractKept i s = false) ∧ (∀ r, exec i s ≠ .refused r)) ∧
  (∀ (b : Byte) (s : State), s.dmc.active = false ∨ s.dmc.bits ≠ 0 ∨ s.dmc.bytes = 0 →
    exec (.dmaLoad b) s = .fault .cvDmaLoadNoRequest) ∧
  (∀ (n : Int) (s : State), n < 0 → exec (.rbRead n) s = .fault .cvNegativeCount)

/-- The cycle counter and the current sample: CLOCK adds 1 to the counter and makes a sample, RESET returns both to their
reset values, no other stimulus touches either (R23, R24; D3, D36). -/
def Obligations.OnlyClockAdvancesTimeAndSample : Prop :=
  ∀ (i : Instr) (s t : State), exec i s = .next t →
    (i = .clock → t.cyc = s.cyc + 1 ∧ t.sample ≠ none) ∧
    (i = .reset → t.cyc = 0 ∧ t.sample = none) ∧
    (i ≠ .clock → i ≠ .reset → t.cyc = s.cyc ∧ t.sample = s.sample)

/-- The two interrupt flags move in the listed stimuli only (R35, R407): the frame flag rises in a CLOCK and falls in a CLOCK
(a write taking effect), a status read or RESET; the DMC's rises in a DMA_LOAD (D27, log 17) and falls in a write of `$4015`, a
write of `$4010` with bit 7 clear or RESET. -/
def Obligations.InterruptFlagsMoveInTheListedStimuliOnly : Prop :=
  ∀ (i : Instr) (s t : State), exec i s = .next t →
    (s.fs.irq = false → t.fs.irq = true → i = .clock) ∧
    (s.fs.irq = true → t.fs.irq = false → i = .clock ∨ i = .rd4015 ∨ i = .reset) ∧
    (s.dmc.irq = false → t.dmc.irq = true → ∃ b, i = .dmaLoad b) ∧
    (s.dmc.irq = true → t.dmc.irq = false →
      i = .reset ∨ (∃ v, i = .w4015 v) ∨ ∃ v, i = .w4010 v ∧ bitSet v 7 = false)

/-- The two contexts share the ring buffer alone (R95, R415): a render read changes the read cursor, the call count and the
occupancy and nothing else of the block; an emulation-context stimulus other than RESET leaves the read cursor and the call
count, and all of the buffer unless it is RB_WRITE. -/
def Obligations.ContextsShareOnlyTheRingBuffer : Prop :=
  ∀ (i : Instr) (s t : State), exec i s = .next t →
    (i.agent.context = .render →
      SameUnitsExcept [] s t ∧ SameShadow s t ∧ t.cfg = s.cfg ∧ t.queue = s.queue ∧ t.cyc = s.cyc ∧
        t.sample = s.sample ∧ t.rs = s.rs ∧ t.rb.buf = s.rb.buf ∧ t.rb.wr = s.rb.wr) ∧
    (i.agent.context = .emulation → i ≠ .reset →
      t.rb.rd = s.rb.rd ∧ t.rb.calls = s.rb.calls ∧ ((∀ l, i ≠ .rbWrite l) → t.rb = s.rb))

/-! Bus writes: each runs, stores its byte, loads its fields, and changes nothing else. The shadow byte per offset is the
spec's decision D20 (log 9). -/

/-- W4000 and W4004 (R113, R212; D15). -/
def Obligations.PulseControlWriteLoadsItsFields : Prop :=
  ∀ (v : Byte) (s : State), s.shadow.wf = true →
    WriteCompletes (.w4000 v) 0x00 v [.p1] s (fun t => PulseControlLoaded v s.p1 t.p1) ∧
    WriteCompletes (.w4004 v) 0x04 v [.p2] s (fun t => PulseControlLoaded v s.p2 t.p2)

/-- W4001 and W4005 (R114, R191, R213). -/
def Obligations.PulseSweepWriteLoadsItsFields : Prop :=
  ∀ (v : Byte) (s : State), s.shadow.wf = true →
    WriteCompletes (.w4001 v) 0x01 v [.p1] s (fun t => PulseSweepLoaded v s.p1 t.p1) ∧
    WriteCompletes (.w4005 v) 0x05 v [.p2] s (fun t => PulseSweepLoaded v s.p2 t.p2)

/-- W4002 and W4006 (R115, R131, R214; D24). -/
def Obligations.PulseTimerLowWriteLoadsTheLowByte : Prop :=
  ∀ (v : Byte) (s : State), s.shadow.wf = true →
    WriteCompletes (.w4002 v) 0x02 v [.p1] s (fun t => PulseTimerLowLoaded v s.p1 t.p1) ∧
    WriteCompletes (.w4006 v) 0x06 v [.p2] s (fun t => PulseTimerLowLoaded v s.p2 t.p2)

/-- W4003 and W4007 (R116, R131, R215, R216; D12, D24). -/
def Obligations.PulseTimerHighWriteRestartsTheChannel : Prop :=
  ∀ (v : Byte) (s : State), s.shadow.wf = true →
    WriteCompletes (.w4003 v) 0x03 v [.p1] s (fun t => PulseTimerHighLoaded s.cfg v s.p1 t.p1) ∧
    WriteCompletes (.w4007 v) 0x07 v [.p2] s (fun t => PulseTimerHighLoaded s.cfg v s.p2 t.p2)

/-- W4008, W400A and W400B (R117 to R119, R131, R242 to R244; D12, D17). -/
def Obligations.TriangleWritesLoadTheirFields : Prop :=
  ∀ (v : Byte) (s : State), s.shadow.wf = true →
    WriteCompletes (.w4008 v) 0x08 v [.tri] s (fun t => TriangleControlLoaded v s.tri t.tri) ∧
    WriteCompletes (.w400A v) 0x0A v [.tri] s (fun t => TriangleTimerLowLoaded v s.tri t.tri) ∧
    WriteCompletes (.w400B v) 0x0B v [.tri] s (fun t => TriangleTimerHighLoaded s.cfg v s.tri t.tri)

/-- W400C, W400E and W400F (R120 to R122, R261, R263, R264; D12, D15). -/
def Obligations.NoiseWritesLoadTheirFields : Prop :=
  ∀ (v : Byte) (s : State), s.shadow.wf = true →
    WriteCompletes (.w400C v) 0x0C v [.noi] s (fun t => NoiseControlLoaded v s.noi t.noi) ∧
    WriteCompletes (.w400E v) 0x0E v [.noi] s (fun t => NoisePeriodLoaded v s.noi t.noi) ∧
    WriteCompletes (.w400F v) 0x0F v [.noi] s (fun t => NoiseLengthLoaded s.cfg v s.noi t.noi)

/-- W4010, W4011, W4012 and W4013 (R123 to R126, R281, R283 to R285). -/
def Obligations.DmcWritesLoadTheirFields : Prop :=
  ∀ (v : Byte) (s : State), s.shadow.wf = true →
    WriteCompletes (.w4010 v) 0x10 v [.dmc] s (fun t => DmcControlLoaded v s.dmc t.dmc) ∧
    WriteCompletes (.w4011 v) 0x11 v [.dmc] s (fun t =>
      t.dmc.out.toNat = bitField v 6 0 ∧ t.dmc.addrByte = s.dmc.addrByte ∧ t.dmc.lenByte = s.dmc.lenByte ∧
        DmcControlSame s.dmc t.dmc ∧ DmcPlaybackSame s.dmc t.dmc) ∧
    WriteCompletes (.w4012 v) 0x12 v [.dmc] s (fun t =>
      t.dmc.addrByte = v ∧ t.dmc.out = s.dmc.out ∧ t.dmc.lenByte = s.dmc.lenByte ∧
        DmcControlSame s.dmc t.dmc ∧ DmcPlaybackSame s.dmc t.dmc) ∧
    WriteCompletes (.w4013 v) 0x13 v [.dmc] s (fun t =>
      t.dmc.lenByte = v ∧ t.dmc.out = s.dmc.out ∧ t.dmc.addrByte = s.dmc.addrByte ∧
        DmcControlSame s.dmc t.dmc ∧ DmcPlaybackSame s.dmc t.dmc)

/-- W4009, W400D, W4014 and W4016 store the byte and do nothing else (R133, R134, R245, R265; D21). -/
def Obligations.UnusedWritesStoreTheByteOnly : Prop :=
  ∀ (v : Byte) (s : State), s.shadow.wf = true →
    WriteCompletes (.w4009 v) 0x09 v [] s (fun _ => True) ∧ WriteCompletes (.w400D v) 0x0D v [] s (fun _ => True) ∧
    WriteCompletes (.w4014 v) 0x14 v [] s (fun _ => True) ∧ WriteCompletes (.w4016 v) 0x16 v [] s (fun _ => True)

/-- W4015 (R128, R371 to R373, R286, R287; D18): enables, length counters, the DMC's start or stop, its interrupt cleared; the
frame interrupt stays. -/
def Obligations.StatusWriteSwitchesTheChannels : Prop :=
  ∀ (v : Byte) (s : State), s.cfg.Source → s.shadow.wf = true →
    WriteCompletes (.w4015 v) 0x15 v [.p1, .p2, .tri, .noi, .dmc] s (fun t =>
      Enabled (bitSet v 0) s.p1.length t.p1.enabled t.p1.length ∧
      Enabled (bitSet v 1) s.p2.length t.p2.enabled t.p2.length ∧
      Enabled (bitSet v 2) s.tri.length t.tri.enabled t.tri.length ∧
      Enabled (bitSet v 3) s.noi.length t.noi.enabled t.noi.length ∧
      DmcSwitched (bitSet v 4) s.dmc t.dmc ∧
      t.p1.duty = s.p1.duty ∧ t.p1.pos = s.p1.pos ∧ t.p1.period = s.p1.period ∧ t.p1.timer = s.p1.timer ∧
      t.p1.halt = s.p1.halt ∧ t.p1.env = s.p1.env ∧ t.p1.sweep = s.p1.sweep ∧
      t.p2.duty = s.p2.duty ∧ t.p2.pos = s.p2.pos ∧ t.p2.period = s.p2.period ∧ t.p2.timer = s.p2.timer ∧
      t.p2.halt = s.p2.halt ∧ t.p2.env = s.p2.env ∧ t.p2.sweep = s.p2.sweep ∧
      t.tri.period = s.tri.period ∧ t.tri.timer = s.tri.timer ∧ t.tri.pos = s.tri.pos ∧
      t.tri.control = s.tri.control ∧ t.tri.linReloadVal = s.tri.linReloadVal ∧ t.tri.linear = s.tri.linear ∧
      t.tri.linReload = s.tri.linReload ∧
      t.noi.mode = s.noi.mode ∧ t.noi.periodIdx = s.noi.periodIdx ∧ t.noi.timer = s.noi.timer ∧
      t.noi.lfsr = s.noi.lfsr ∧ t.noi.halt = s.noi.halt ∧ t.noi.env = s.noi.env)

/-- W4017 (R130, R156, R161): the write is recorded with its issue cycle and the delay of that cycle's parity, and changes
nothing else at the time. The issue cycle is `cyc` by D3; the last write wins by D9 (log 10). -/
def Obligations.FrameWriteIsRecordedOnly : Prop :=
  ∀ (v : Byte) (s : State), s.cfg.Source → s.shadow.wf = true →
    WriteCompletes (.w4017 v) 0x17 v [.fs] s (fun t =>
      t.fs.pend = some { value := v, issue := s.cyc, delay := if s.cyc % 2 = 1 then 3 else 4 } ∧
        t.fs.mode = s.fs.mode ∧ t.fs.inhibit = s.fs.inhibit ∧ t.fs.irq = s.fs.irq ∧ t.fs.base = s.fs.base)

/-! Reads and observations. -/

/-- The 23 open-bus reads run, return the offset's shadow byte (or the latch), and change nothing (R88, R376; D20, log 9). -/
def Obligations.OpenBusReadsChangeNothing : Prop :=
  ∀ e ∈ openBusReads, ∀ s : State,
    Observes e.1 s (.byte (if s.cfg.openBusMode = .perOffset then s.shadow.read (0x4000 + e.2) else s.busLatch))

/-- A write to an unreadable offset followed by its read gives the byte written, in either open-bus mode (R88; D20, log 9). -/
def Obligations.OpenBusReadGivesTheLastWrite : Prop :=
  ∀ (v : Byte) (s : State), s.shadow.wf = true → ∀ e ∈ openBusPairs v,
    ∃ t u, exec e.1 s = .next t ∧ exec e.2 t = .next u ∧ u.response = .byte v

/-- RD4015 (R129, R375, R377): the status byte bit by bit, the frame interrupt reported and then cleared, the DMC interrupt
kept, nothing else changed. Bit 5, the sampling before the clear and "active" are D19 (log 18). -/
def Obligations.StatusReadReportsThenClears : Prop :=
  ∀ s : State, ∃ t b, exec .rd4015 s = .next t ∧ t.response = .byte b ∧
    bitSet b 7 = s.dmc.irq ∧ bitSet b 6 = s.fs.irq ∧ bitSet b 5 = false ∧ bitSet b 4 = s.dmc.active ∧
    bitSet b 3 = decide (0 < s.noi.length.toNat) ∧ bitSet b 2 = decide (0 < s.tri.length.toNat) ∧
    bitSet b 1 = decide (0 < s.p2.length.toNat) ∧ bitSet b 0 = decide (0 < s.p1.length.toNat) ∧
    t.fs.irq = false ∧ t.fs.mode = s.fs.mode ∧ t.fs.inhibit = s.fs.inhibit ∧ t.fs.base = s.fs.base ∧
    t.fs.pend = s.fs.pend ∧ SameShadow s t ∧ SamePath s t ∧ SameUnitsExcept [.fs] s t

/-- DMA_REQ, SAMPLE and IRQ return what they observe and change nothing (R292, R384, R385; D10, D26, D36). -/
def Obligations.ObservationPortsChangeNothing : Prop :=
  ∀ s : State,
    Observes .dmaReq s (.request
      (if s.dmc.active = true ∧ s.dmc.bits.toNat = 0 ∧ s.dmc.bytes.toNat ≠ 0 then some s.dmc.curAddr else none)) ∧
    Observes .sample s (.sample s.sample) ∧
    Observes .irq s (.interrupts s.fs.irq s.dmc.irq (s.fs.irq || s.dmc.irq))

/-! The frame sequencer. -/

/-- The periodic schedule (R150 to R154): at which positions past the origin the pulses come, in either mode, where no write is
pending or the pending one is not yet due; the interrupt flag rises with the pulse and stays, and nothing else of the sequencer
changes. The 5-step period is a parameter (D5, log 10). -/
def Obligations.ScheduleFiresAtTheListedSteps : Prop :=
  ∀ (cfg : Cfg) (fs : FrameSeq) (c : Nat), cfg.Source → ¬ WriteDue fs c →
    (fs.clock cfg c).2 = { fs with irq := fs.irq || (fs.clock cfg c).1.irqPulse } ∧
    (fs.mode = .fourStep →
      ((fs.clock cfg c).1.quarter = true ↔ (c - fs.base) % 29830 ∈ [7459, 14913, 22371, 29829]) ∧
      ((fs.clock cfg c).1.half = true ↔ (c - fs.base) % 29830 ∈ [14913, 29829]) ∧
      ((fs.clock cfg c).1.irqPulse = true ↔ (c - fs.base) % 29830 = 29829 ∧ fs.inhibit = false)) ∧
    (fs.mode = .fiveStep →
      ((fs.clock cfg c).1.quarter = true ↔ (c - fs.base) % cfg.period5 ∈ [7459, 14913, 22371, 29829, 37281]) ∧
      ((fs.clock cfg c).1.half = true ↔ (c - fs.base) % cfg.period5 ∈ [14913, 29829, 37281]) ∧
      (fs.clock cfg c).1.irqPulse = false)

/-- A `$4017` write is not visible before its effective cycle (R156, R157, R440): from a state with no write pending, the
CLOCKs of the delay leave what they leave without the write, but for the pending slot, the shadow byte and the response. -/
def Obligations.FrameWriteInvisibleBeforeItsEffect : Prop :=
  ∀ (v : Byte) (s t : State) (k : Nat), s.cfg.Source → s.fs.pend = none → exec (.w4017 v) s = .next t →
    k ≤ (if s.cyc % 2 = 1 then 3 else 4) → SameButPending (s.clocks k) (t.clocks k)

/-- A `$4017` write takes effect in the CLOCK numbered issue + delay (R156 to R158; D3, D8, D9, log 10): the mode and the
inhibit flag from bits 7 and 6, the origin at the issue cycle, the interrupt cleared by bit 6, an immediate quarter- and
half-frame exactly in 5-step mode, no interrupt pulse. The earlier pending write, if any, is lost (R159). -/
def Obligations.FrameWriteTakesEffectAfterItsDelay : Prop :=
  ∀ (v : Byte) (s t u : State), s.cfg.Source → exec (.w4017 v) s = .next t →
    u = t.clocks (if s.cyc % 2 = 1 then 3 else 4) →
    u.fs.pend = some { value := v, issue := s.cyc, delay := if s.cyc % 2 = 1 then 3 else 4 } ∧
    u.clock.fs.mode = (if bitSet v 7 then .fiveStep else .fourStep) ∧ u.clock.fs.inhibit = bitSet v 6 ∧
    u.clock.fs.base = s.cyc ∧ u.clock.fs.pend = none ∧ u.clock.fs.irq = (u.fs.irq && !bitSet v 6) ∧
    (eventsOf u).quarter = bitSet v 7 ∧ (eventsOf u).half = bitSet v 7 ∧ (eventsOf u).irqPulse = false

/-! CLOCK. -/

/-- CLOCK runs in every state, clocks the frame sequencer with the cycle's number, mixes the five levels the channels show at
its end into the sample, pushes that sample once, counts the cycle, and leaves the shadow bytes, the ring buffer and the
configuration (R151, R320, R378, R379, R383; D3, D32). Mode, inhibit flag, origin and pending write of the sequencer stay unless
the pending write is due, and are then loaded from it (R157, R158; D8, log 10). What the stimulus leaves is `State.clock`, which
`State.clocks` repeats. -/
def Obligations.ClockMixesAndPushesOneSample : Prop :=
  ∀ s : State, ∃ t x, exec .clock s = .next t ∧ t = s.clock.withResponse .nothing ∧ t.response = .nothing ∧
    t.fs = (s.fs.clock s.cfg s.cyc).2 ∧
    (¬ WriteDue s.fs s.cyc → t.fs.mode = s.fs.mode ∧ t.fs.inhibit = s.fs.inhibit ∧ t.fs.base = s.fs.base ∧
      t.fs.pend = s.fs.pend ∧ t.fs.irq = (s.fs.irq || (eventsOf s).irqPulse)) ∧
    (∀ p ∈ s.fs.pend, s.cyc = p.issue + p.delay →
      t.fs.mode = (if bitSet p.value 7 then .fiveStep else .fourStep) ∧ t.fs.inhibit = bitSet p.value 6 ∧
      t.fs.base = p.issue ∧ t.fs.pend = none ∧
      t.fs.irq = ((s.fs.irq && !bitSet p.value 6) || (eventsOf s).irqPulse)) ∧
    t.cyc = s.cyc + 1 ∧ t.sample = some x ∧
    x = mix t.cfg (t.p1.output t.cfg) (t.p2.output t.cfg) (t.tri.output t.cfg) t.noi.output t.dmc.out ∧
    t.rs = s.rs.push s.cfg.rsOutCap x ∧ t.rb = s.rb ∧ t.cfg = s.cfg ∧ t.queue = s.queue ∧ SameShadow s t

/-- What the frame events of a CLOCK do, seen at its end (R380, R381): envelopes and linear counter at a quarter-frame, length
counters and sweeps at a half-frame, nothing without; no register write's field changes. -/
def Obligations.ClockDispatchesTheFrameEvents : Prop :=
  ∀ s t : State, exec .clock s = .next t →
    (t.p1.env = if (eventsOf s).quarter then s.p1.env.clock else s.p1.env) ∧
    (t.p2.env = if (eventsOf s).quarter then s.p2.env.clock else s.p2.env) ∧
    (t.noi.env = if (eventsOf s).quarter then s.noi.env.clock else s.noi.env) ∧
    (t.tri.linear = if (eventsOf s).quarter then s.tri.clockLinearCounter.linear else s.tri.linear) ∧
    (t.tri.linReload = if (eventsOf s).quarter then s.tri.clockLinearCounter.linReload else s.tri.linReload) ∧
    t.p1.length.toNat = s.p1.length.toNat - (if (eventsOf s).half && !s.p1.halt then 1 else 0) ∧
    t.p2.length.toNat = s.p2.length.toNat - (if (eventsOf s).half && !s.p2.halt then 1 else 0) ∧
    t.tri.length.toNat = s.tri.length.toNat - (if (eventsOf s).half && !s.tri.control then 1 else 0) ∧
    t.noi.length.toNat = s.noi.length.toNat - (if (eventsOf s).half && !s.noi.halt then 1 else 0) ∧
    (t.p1.sweep = if (eventsOf s).half then (s.p1.sweep.clock s.cfg 0 s.p1.period).2 else s.p1.sweep) ∧
    (t.p2.sweep = if (eventsOf s).half then (s.p2.sweep.clock s.cfg 1 s.p2.period).2 else s.p2.sweep) ∧
    (t.p1.period = if (eventsOf s).half then (s.p1.sweep.clock s.cfg 0 s.p1.period).1.getD s.p1.period else s.p1.period) ∧
    (t.p2.period = if (eventsOf s).half then (s.p2.sweep.clock s.cfg 1 s.p2.period).1.getD s.p2.period else s.p2.period) ∧
    t.p1.enabled = s.p1.enabled ∧ t.p1.duty = s.p1.duty ∧ t.p1.halt = s.p1.halt ∧
    t.p2.enabled = s.p2.enabled ∧ t.p2.duty = s.p2.duty ∧ t.p2.halt = s.p2.halt ∧
    t.tri.enabled = s.tri.enabled ∧ t.tri.period = s.tri.period ∧ t.tri.control = s.tri.control ∧
    t.tri.linReloadVal = s.tri.linReloadVal ∧
    t.noi.enabled = s.noi.enabled ∧ t.noi.mode = s.noi.mode ∧ t.noi.periodIdx = s.noi.periodIdx ∧
    t.noi.halt = s.noi.halt

/-- The timers of a CLOCK (R221, R248, R266, R289, R379, R382; D6, D7, D24, D25, log 14): the triangle's ticks on every CLOCK,
the others' on every CLOCK or where the cycle's parity is `APU_PHASE`, as `APU_DOMAIN` says; a timer at 0 reloads, from the
period as the sweep just left it, and advances its sequencer; otherwise it counts down. -/
def Obligations.ClockTicksTheTimers : Prop :=
  ∀ s t : State, exec .clock s = .next t →
    (s.tri.timer = 0 → t.tri.timer = s.tri.period ∧
      t.tri.pos.toNat = (s.tri.pos.toNat + (if t.tri.linear ≠ 0 ∧ t.tri.length ≠ 0 then 1 else 0)) % 32) ∧
    (s.tri.timer ≠ 0 → t.tri.timer.toNat + 1 = s.tri.timer.toNat ∧ t.tri.pos = s.tri.pos) ∧
    (∀ id : PulseId,
      (Ticks s s.cfg.apuDomain.pulse → (s.pulse id).timer = 0 →
        (t.pulse id).timer = (t.pulse id).period ∧ (t.pulse id).pos.toNat = ((s.pulse id).pos.toNat + 1) % 8) ∧
      (Ticks s s.cfg.apuDomain.pulse → (s.pulse id).timer ≠ 0 →
        (t.pulse id).timer.toNat + 1 = (s.pulse id).timer.toNat ∧ (t.pulse id).pos = (s.pulse id).pos) ∧
      (¬ Ticks s s.cfg.apuDomain.pulse →
        (t.pulse id).timer = (s.pulse id).timer ∧ (t.pulse id).pos = (s.pulse id).pos)) ∧
    (Ticks s s.cfg.apuDomain.noise → s.noi.timer = 0 →
      s.cfg.noisePeriod.toList[s.noi.periodIdx.toNat]? = some t.noi.timer ∧ t.noi.lfsr = s.noi.shifted) ∧
    (Ticks s s.cfg.apuDomain.noise → s.noi.timer ≠ 0 →
      t.noi.timer.toNat + 1 = s.noi.timer.toNat ∧ t.noi.lfsr = s.noi.lfsr) ∧
    (¬ Ticks s s.cfg.apuDomain.noise → t.noi.timer = s.noi.timer ∧ t.noi.lfsr = s.noi.lfsr) ∧
    (Ticks s s.cfg.apuDomain.dmc → t.dmc = s.dmc.clock s.cfg) ∧ (¬ Ticks s s.cfg.apuDomain.dmc → t.dmc = s.dmc)

/-! Envelope, sweep, length. -/

/-- The envelope's clock (R183; D6, log 14). -/
def Obligations.EnvelopeClockRestartsCountsAndDecays : Prop :=
  ∀ e : Env, e.clock.vol = e.vol ∧ e.clock.loop = e.loop ∧ e.clock.constVol = e.constVol ∧ e.clock.start = false ∧
    (e.start = true → e.clock.decay.toNat = 15 ∧ e.clock.div = e.vol) ∧
    (e.start = false → e.div.toNat ≠ 0 → e.clock.div.toNat = e.div.toNat - 1 ∧ e.clock.decay = e.decay) ∧
    (e.start = false → e.div.toNat = 0 → e.clock.div = e.vol ∧
      e.clock.decay.toNat = if e.decay.toNat ≠ 0 then e.decay.toNat - 1 else if e.loop then 15 else 0)

/-- The decay levels after a restart (R185): 15, 14, and so on, each held for `vol + 1` clocks, down to 0 and no further, or
over again from 15 when looping. -/
def Obligations.EnvelopeDecaysOneLevelPerPeriod : Prop :=
  ∀ (e : Env) (k : Nat), e.start = true →
    (e.loop = false → (Env.clock^[k + 1] e).decay.toNat = 15 - k / (e.vol.toNat + 1)) ∧
    (e.loop = true → (Env.clock^[k + 1] e).decay.toNat = 15 - k / (e.vol.toNat + 1) % 16)

/-- A period that the sweep returns is the target of R192, with no wrap: at most `0x7FF`, never negative (R192 to R195). -/
def Obligations.SweepReturnsTheExactTarget : Prop :=
  ∀ (cfg : Cfg) (sw : Sweep) (extra : Nat) (cur p : BitVec 11), cfg.Source → extra ≤ 1 →
    (sw.clock cfg extra cur).1 = some p →
    8 ≤ cur.toNat ∧
    (sw.negate = false → p.toNat = cur.toNat + cur.toNat / 2 ^ sw.shift.toNat) ∧
    (sw.negate = true → p.toNat + extra + cur.toNat / 2 ^ sw.shift.toNat = cur.toNat)

/-- When the sweep returns a period, and what its clock does to the divider and the reload flag (R194, R195; D23, log 16). -/
def Obligations.SweepClockServicesItsDivider : Prop :=
  ∀ (cfg : Cfg) (sw : Sweep) (extra : Nat) (cur : BitVec 11), cfg.Source →
    ((sw.clock cfg extra cur).1 ≠ none ↔
      sw.div.toNat = 0 ∧ sw.enable = true ∧ sw.shift.toNat ≠ 0 ∧ 8 ≤ cur.toNat ∧
        (sw.negate = true ∨ cur.toNat + cur.toNat / 2 ^ sw.shift.toNat ≤ 0x7FF)) ∧
    (sw.clock cfg extra cur).2.reload = false ∧
    ((sw.div.toNat = 0 ∨ sw.reload = true) → (sw.clock cfg extra cur).2.div = sw.period) ∧
    ((sw.div.toNat ≠ 0 ∧ sw.reload = false) → (sw.clock cfg extra cur).2.div.toNat + 1 = sw.div.toNat) ∧
    (sw.clock cfg extra cur).2.enable = sw.enable ∧ (sw.clock cfg extra cur).2.period = sw.period ∧
    (sw.clock cfg extra cur).2.negate = sw.negate ∧ (sw.clock cfg extra cur).2.shift = sw.shift

/-- The sweep polarity divergence (R197): the same register write (enable, negate, a shift of 1 to 7) on the two channels'
units, clocked with the same period of at least 8 where the divider is at 0, gives periods that differ by exactly 1; with
shift 1 and period 100, 50 and 49. -/
def Obligations.SweepPolarityDivergesByOne : Prop :=
  ∀ cfg : Cfg, cfg.Source →
  (∀ (sw : Sweep) (v : Byte) (cur : BitVec 11), sw.div = 0 → bitSet v 7 = true → bitSet v 3 = true →
    bitField v 2 0 ≠ 0 → 8 ≤ cur.toNat →
    ∃ a b, ((sw.setRegister v).clock cfg (Config.sweepExtra .one) cur).1 = some a ∧
      ((sw.setRegister v).clock cfg (Config.sweepExtra .two) cur).1 = some b ∧ a.toNat = b.toNat + 1) ∧
  ((Sweep.reset.setRegister 0x89).clock cfg (Config.sweepExtra .one) 100).1 = some 50 ∧
  ((Sweep.reset.setRegister 0x89).clock cfg (Config.sweepExtra .two) 100).1 = some 49

/-- The linear counter's clock, and that a CLOCK runs it exactly at a quarter-frame (R246). -/
def Obligations.LinearCounterReloadsOrCountsDown : Prop :=
  (∀ t : Triangle,
    (t.linReload = true → t.clockLinearCounter.linear = t.linReloadVal ∧ t.clockLinearCounter.linReload = t.control) ∧
    (t.linReload = false → t.clockLinearCounter.linear.toNat = t.linear.toNat - 1 ∧
      t.clockLinearCounter.linReload = false) ∧
    t.clockLinearCounter = { t with
      linear := t.clockLinearCounter.linear, linReload := t.clockLinearCounter.linReload }) ∧
  (∀ s t : State, exec .clock s = .next t →
    ((eventsOf s).quarter = true → t.tri.linear = s.tri.clockLinearCounter.linear ∧
      t.tri.linReload = s.tri.clockLinearCounter.linReload) ∧
    ((eventsOf s).quarter = false → t.tri.linear = s.tri.linear ∧ t.tri.linReload = s.tri.linReload))

/-! Channels. -/

/-- One full waveform (R221, R248): a pulse channel is back where it was after `8 * (period + 1)` ticks of its timer, a triangle
whose counters are non-zero after `32 * (period + 1)`. The `+ 1` is D6 (log 14). -/
def Obligations.WaveformsRepeat : Prop :=
  (∀ p : Pulse, p.timer.toNat ≤ p.period.toNat → Pulse.clockTimer^[8 * (p.period.toNat + 1)] p = p) ∧
  (∀ t : Triangle, t.timer.toNat ≤ t.period.toNat → t.linear ≠ 0 → t.length ≠ 0 →
    Triangle.clockTimer^[32 * (t.period.toNat + 1)] t = t)

/-- When a channel is silent, and what it shows otherwise (R223, R249, R268); a pulse shows its level where the duty pattern has
a 1, position 0 being the pattern's leftmost bit (R211, D11, log 15). -/
def Obligations.ChannelsAreSilentWhenMuted : Prop :=
  ∀ cfg : Cfg, cfg.Source →
  (∀ p : Pulse, p.enabled = false ∨ p.length.toNat = 0 ∨ p.period.toNat < 8 ∨
      (p.sweep.negate = false ∧ 0x7FF < p.period.toNat + p.period.toNat / 2 ^ p.sweep.shift.toNat) →
    p.output cfg = 0) ∧
  (∀ p : Pulse, p.enabled = true → p.length.toNat ≠ 0 → 8 ≤ p.period.toNat →
      (p.sweep.negate = true ∨ p.period.toNat + p.period.toNat / 2 ^ p.sweep.shift.toNat ≤ 0x7FF) →
    ∃ pattern, cfg.dutyTable.toList[p.duty.toNat]? = some pattern ∧
      p.output cfg = if pattern.toNat / 2 ^ (7 - p.pos.toNat) % 2 = 1 then (if p.env.constVol then p.env.vol else p.env.decay)
        else 0) ∧
  (∀ t : Triangle, t.enabled = false ∨ t.length.toNat = 0 ∨ t.linear.toNat = 0 ∨ t.period.toNat < 2 → t.output cfg = 0) ∧
  (∀ t : Triangle, t.enabled = true → t.length.toNat ≠ 0 → t.linear.toNat ≠ 0 → 2 ≤ t.period.toNat →
    (t.output cfg).toNat = if t.pos.toNat ≤ 15 then 15 - t.pos.toNat else t.pos.toNat - 16) ∧
  (∀ n : Noise, n.enabled = false ∨ n.length.toNat = 0 ∨ n.lfsr.toNat % 2 = 1 → n.output = 0) ∧
  (∀ n : Noise, n.enabled = true → n.length.toNat ≠ 0 → n.lfsr.toNat % 2 = 0 →
    n.output = if n.env.constVol then n.env.vol else n.env.decay)

/-- The noise register's shift (R266): the feedback of bit 0 with bit 6 or bit 1 goes to bit 14, the rest moves down by one. It
never turns a non-zero register into zero (R269). -/
def Obligations.NoiseShiftFeedsBackAndNeverZeroes : Prop :=
  ∀ n : Noise,
    (n.shifted.toNat = n.lfsr.toNat / 2 +
      (n.lfsr.toNat + n.lfsr.toNat / 2 ^ (if n.mode then 6 else 1)) % 2 * 2 ^ 14) ∧
    (n.lfsr ≠ 0 → n.shifted ≠ 0)

/-! The DMC. -/

/-- `dmc.start()` (R286): with no byte remaining, the address and the length come from their registers and the channel turns
active; with bytes remaining it does nothing. A `$4015` write with bit 4 set runs it (that the write clears the interrupt flag
too is R371). -/
def Obligations.DmcStartLoadsTheSampleOrDoesNothing : Prop :=
  (∀ (cfg : Cfg) (d : Dmc), cfg.Source →
    (d.bytes.toNat = 0 →
      (d.start cfg).curAddr.toNat = 0xC000 + d.addrByte.toNat * 64 ∧ (d.start cfg).bytes.toNat = d.lenByte.toNat * 16 + 1 ∧
        (d.start cfg).active = true ∧
        d.start cfg = { d with curAddr := (d.start cfg).curAddr, bytes := (d.start cfg).bytes, active := true }) ∧
    (d.bytes.toNat ≠ 0 → d.start cfg = d)) ∧
  (∀ (v : Byte) (s : State), bitSet v 4 = true →
    ∃ t, exec (.w4015 v) s = .next t ∧ t.dmc = { s.dmc.start s.cfg with irq := false })

/-- `dmc.clock()` (R289; D6, D28, log 14, log 17): at an underflow the timer reloads and a remaining bit moves the level by 2,
saturating at 127 and 0; otherwise the timer counts down and the level holds. -/
def Obligations.DmcClockMovesTheLevelWithinItsRange : Prop :=
  ∀ (d : Dmc) (cfg : Cfg),
    (d.timer.toNat ≠ 0 → (d.clock cfg).timer.toNat + 1 = d.timer.toNat ∧ d.clock cfg = { d with timer := (d.clock cfg).timer }) ∧
    (d.timer.toNat = 0 → cfg.dmcRate.toList[d.rateIdx.toNat]? = some (d.clock cfg).timer) ∧
    (d.timer.toNat = 0 → d.bits.toNat = 0 → d.clock cfg = { d with timer := (d.clock cfg).timer }) ∧
    (d.timer.toNat = 0 → d.bits.toNat ≠ 0 →
      (d.clock cfg).out.toNat = (if d.shift.toNat % 2 = 1 then min (d.out.toNat + 2) 127 else d.out.toNat - 2) ∧
      (d.clock cfg).shift.toNat = d.shift.toNat / 2 ∧ (d.clock cfg).bits.toNat + 1 = d.bits.toNat ∧
      d.clock cfg = { d with
        timer := (d.clock cfg).timer, out := (d.clock cfg).out, shift := (d.clock cfg).shift, bits := (d.clock cfg).bits })

/-- DMA_LOAD with a request pending (R294, R295; D27, log 17): the byte fills the shift buffer and answers the request, the
address advances, `0xFFFF` to `0x8000`, and the byte count goes down; at 0 a loop restarts silently, otherwise the channel turns
inactive and raises the interrupt if enabled. Nothing else changes. -/
def Obligations.DmaLoadDeliversTheByte : Prop :=
  ∀ (b : Byte) (s : State), s.cfg.Source → s.dmc.active = true → s.dmc.bits.toNat = 0 → s.dmc.bytes.toNat ≠ 0 →
    ∃ t, exec (.dmaLoad b) s = .next t ∧ t.response = .nothing ∧ SameShadow s t ∧ SamePath s t ∧
      SameUnitsExcept [.dmc] s t ∧ t.dmc.shift = b ∧ t.dmc.bits.toNat = 8 ∧ t.dmc.request = none ∧
      (s.dmc.bytes.toNat ≠ 1 →
        t.dmc.bytes.toNat + 1 = s.dmc.bytes.toNat ∧ t.dmc.active = true ∧ t.dmc.irq = s.dmc.irq) ∧
      (s.dmc.bytes.toNat ≠ 1 ∨ s.dmc.loop = false →
        t.dmc.curAddr.toNat = if s.dmc.curAddr.toNat = 0xFFFF then 0x8000 else s.dmc.curAddr.toNat + 1) ∧
      (s.dmc.bytes.toNat = 1 → s.dmc.loop = true →
        t.dmc.curAddr.toNat = 0xC000 + s.dmc.addrByte.toNat * 64 ∧ t.dmc.bytes.toNat = s.dmc.lenByte.toNat * 16 + 1 ∧
          t.dmc.active = true ∧ t.dmc.irq = s.dmc.irq) ∧
      (s.dmc.bytes.toNat = 1 → s.dmc.loop = false →
        t.dmc.bytes.toNat = 0 ∧ t.dmc.active = false ∧ t.dmc.irq = (s.dmc.irq || s.dmc.irqEnable)) ∧
      t.dmc.irqEnable = s.dmc.irqEnable ∧ t.dmc.loop = s.dmc.loop ∧ t.dmc.rateIdx = s.dmc.rateIdx ∧
      t.dmc.timer = s.dmc.timer ∧ t.dmc.out = s.dmc.out ∧ t.dmc.addrByte = s.dmc.addrByte ∧
      t.dmc.lenByte = s.dmc.lenByte

/-! Mixer. -/

/-- The mixed sample lies in `[-1, 1)` for all levels (R324), and its minimum is the silent one alone. -/
def Obligations.MixedSampleStaysInRange : Prop :=
  ∀ (cfg : Cfg) (p1 p2 tri noise : BitVec 4) (dmc : BitVec 7), cfg.Source →
    -1 ≤ mix cfg p1 p2 tri noise dmc ∧ mix cfg p1 p2 tri noise dmc < 1 ∧
      (mix cfg p1 p2 tri noise dmc = -1 ↔ p1 = 0 ∧ p2 = 0 ∧ tri = 0 ∧ noise = 0 ∧ dmc = 0)

/-- The final sample (R323): the formula, its range, the silent input, and the worked values the rule prints. -/
def Obligations.MixIsTheSumOfTheTwoStages : Prop :=
  ∀ cfg : Cfg, cfg.Source →
  (∀ (p1 p2 tri noise : BitVec 4) (dmc : BitVec 7),
    mix cfg p1 p2 tri noise dmc = (pulseTable cfg (p1.toNat + p2.toNat) + tndOut cfg tri noise dmc) * 2 - 1 ∧
      -1 ≤ mix cfg p1 p2 tri noise dmc ∧ mix cfg p1 p2 tri noise dmc ≤ 1) ∧
  mix cfg 0 0 0 0 0 = -1 ∧ mix cfg 15 15 0 0 0 = -6719 / 13910 ∧ mix cfg 0 0 15 0 0 = -49333 / 97270 ∧
  mix cfg 0 0 0 15 0 = -89473 / 137410 ∧ mix cfg 0 0 0 0 127 = 262433 / 1766900 ∧ mix cfg 0 0 0 0 64 = -107311 / 362975 ∧
  mix cfg 15 0 0 0 0 = -16879 / 24070 ∧ mix cfg 8 7 3 2 64 = 3867452852084 / 38058793130825 ∧
  mix cfg 15 15 15 15 127 = 295851787569519391 / 295852171688035300

/-- The two stages as single fractions (R321, R322): `95.88 n / (8128 + 100 n)` and `159.79 s / (1 + 100 s)`. -/
def Obligations.MixerStagesAreTheirFractions : Prop :=
  ∀ cfg : Cfg, cfg.Source →
  (∀ n : Nat, pulseTable cfg n = (9588 / 100) * n / (8128 + 100 * n)) ∧
  (∀ (tri noise : BitVec 4) (dmc : BitVec 7), ∃ x : Rat,
    x = (tri.toNat : Rat) / 8227 + (noise.toNat : Rat) / 12241 + (dmc.toNat : Rat) / 22638 ∧
      tndOut cfg tri noise dmc = (15979 / 100) * x / (1 + 100 * x))

/-! Resampler. -/

/-- SET_RATE (R335): the effective step is the base step times the ratio clamped to `[0.995, 1.005]`, and nothing else is
written. -/
def Obligations.SetRateClampsTheRatio : Prop :=
  ∀ (r : Rat) (s : State), s.cfg.Source → ∃ t, exec (.setRate r) s = .next t ∧
    (r < 995 / 1000 → t.rs.step = s.cfg.baseStep * (995 / 1000)) ∧
    (995 / 1000 ≤ r → r ≤ 1005 / 1000 → t.rs.step = s.cfg.baseStep * r) ∧
    (1005 / 1000 < r → t.rs.step = s.cfg.baseStep * (1005 / 1000)) ∧
    (0 < s.cfg.baseStep → 0 < t.rs.step) ∧
    t.rs.ring = s.rs.ring ∧ t.rs.idx = s.rs.idx ∧ t.rs.n = s.rs.n ∧ t.rs.pos = s.rs.pos ∧ t.rs.out = s.rs.out ∧
    t.response = .nothing ∧ SameShadow s t ∧ SameUnitsExcept [] s t ∧ t.cfg = s.cfg ∧ t.queue = s.queue ∧
    t.cyc = s.cyc ∧ t.sample = s.sample ∧ t.rb = s.rb

/-- RS_PULL (R336): returns the accumulated batch, oldest first, and clears it; a second pull returns the empty list; nothing
else is touched. -/
def Obligations.PullReturnsAndClearsTheBatch : Prop :=
  ∀ s : State, ∃ t u, exec .rsPull s = .next t ∧ t.response = .batch s.rs.out ∧ t.rs.out = [] ∧
    exec .rsPull t = .next u ∧ u.response = .batch [] ∧
    t.rs.ring = s.rs.ring ∧ t.rs.idx = s.rs.idx ∧ t.rs.n = s.rs.n ∧ t.rs.pos = s.rs.pos ∧ t.rs.step = s.rs.step ∧
    SameShadow s t ∧ SameUnitsExcept [] s t ∧ t.cfg = s.cfg ∧ t.queue = s.queue ∧ t.cyc = s.cyc ∧
    t.sample = s.sample ∧ t.rb = s.rb

/-- The curve of R332: its coefficients; it runs through the two middle samples and reproduces every polynomial of degree 2
through its four samples. -/
def Obligations.CubicReproducesParabolas : Prop :=
  (∀ y0 y1 y2 y3 t : Rat, cubic y0 y1 y2 y3 t = y1 + 1 / 2 * (y2 - y0) * t +
    (y0 - 5 / 2 * y1 + 2 * y2 - 1 / 2 * y3) * t ^ 2 + (1 / 2 * (y3 - y0) + 3 / 2 * (y1 - y2)) * t ^ 3) ∧
  (∀ y0 y1 y2 y3 : Rat, cubic y0 y1 y2 y3 0 = y1 ∧ cubic y0 y1 y2 y3 1 = y2) ∧
  (∀ a b c t : Rat, cubic (a - b + c) a (a + b + c) (a + 2 * b + 4 * c) t = a + b * t + c * t ^ 2)

/-- A push (R331 to R334, R39 (h)): the sample is stored in the ring. The first three pushes since reset advance the position by
1 and append nothing (D33, log 19). Any later one advances it by 1 and brings it down by the step once per pass,
`floor((pos + 1) / step)` passes, to below the step; each pass appends the interpolated sample while there is room. -/
def Obligations.PushRunsThePassesOfItsPosition : Prop :=
  ∀ (rs : Resampler) (cap : Nat) (x : Rat), rs.n ≤ 4 →
   SampleStored x rs (rs.push cap x) ∧
   (rs.n < 3 → (rs.push cap x).pos = rs.pos + 1 ∧ (rs.push cap x).out = rs.out) ∧
   (3 ≤ rs.n → 0 ≤ rs.pos → 0 < rs.step → rs.out.length ≤ cap →
    (rs.push cap x).out = rs.out ++
      (passOutputs (rs.push cap x) rs.pos rs.step ((rs.pos + 1) / rs.step).floor.toNat).take (cap - rs.out.length) ∧
    0 ≤ (rs.push cap x).pos ∧ (rs.push cap x).pos < (rs.push cap x).step ∧ (rs.push cap x).step = rs.step ∧
    (rs.push cap x).pos = rs.pos + 1 - rs.step * ((rs.pos + 1) / rs.step).floor ∧
    (rs.push cap x).out.length = min cap (rs.out.length + ((rs.pos + 1) / rs.step).floor.toNat) ∧
    rs.out <+: (rs.push cap x).out)

/-- DC passthrough (R338 (a)): pushes of one value since reset give that value and no other, whatever the parameters. -/
def Obligations.ConstantInputGivesConstantOutput : Prop :=
  ∀ (cfg : Cfg) (c : Rat) (m : Nat), cfg.Valid →
    ∀ y ∈ (Resampler.pushAll cfg.rsOutCap (List.replicate m c) (Resampler.reset cfg)).out, y = c

/-- The number of outputs (R334, R338 (b)): at ratio 1, none in the first three pushes since reset, and `floor(m / step)` in
`m ≥ 4` pushes, as far as there is room. -/
def Obligations.PushesGiveTheRatioOfOutputs : Prop :=
  ∀ (cfg : Cfg) (l : List Rat), cfg.Valid →
    (l.length < 4 → (Resampler.pushAll cfg.rsOutCap l (Resampler.reset cfg)).out = []) ∧
    (4 ≤ l.length → (Resampler.pushAll cfg.rsOutCap l (Resampler.reset cfg)).out.length =
      min cfg.rsOutCap ((l.length : Rat) / cfg.baseStep).floor.toNat)

/-! Ring buffer. -/

/-- RB_WRITE (R351): as many samples as fit go in after those buffered, in order, the rest are dropped, and the count is
returned; nothing else changes. -/
def Obligations.RingWriteKeepsWhatFits : Prop :=
  ∀ (samples : List Rat) (s : State), s.rb.Inv s.cfg →
    ∃ t, exec (.rbWrite samples) s = .next t ∧
      (Instr.rbWrite samples).agent.context = .emulation ∧
      t.response = .accepted (min samples.length (s.cfg.rbCap - s.rb.occ)) ∧
      t.rb.contents t.cfg.rbCap =
        s.rb.contents s.cfg.rbCap ++ samples.take (min samples.length (s.cfg.rbCap - s.rb.occ)) ∧
      t.rb.occ = s.rb.occ + min samples.length (s.cfg.rbCap - s.rb.occ) ∧
      t.rb.rd = s.rb.rd ∧ t.rb.calls = s.rb.calls ∧ t.rb.buf.length = s.rb.buf.length ∧
      SameShadow s t ∧ SameUnitsExcept [] s t ∧ t.cfg = s.cfg ∧ t.queue = s.queue ∧ t.cyc = s.cyc ∧
      t.sample = s.sample ∧ t.rs = s.rs

/-- RB_READ (R352, R353; D34, D40, log 19): the oldest samples in order, zeros after them up to the count, the number of real
ones; the occupancy over the capacity is reported on every `REPORT_EVERY`-th call; nothing else changes. -/
def Obligations.RingReadDeliversThenFills : Prop :=
  ∀ (count : Nat) (s : State), s.rb.Inv s.cfg →
    ∃ t k, exec (.rbRead count) s = .next t ∧ k = min count s.rb.occ ∧
      t.response = .rendered ((s.rb.contents s.cfg.rbCap).take k ++ List.replicate (count - k) 0) k
        (if s.rb.calls + 1 = s.cfg.reportEvery then some (((s.rb.occ - k : Nat) : Rat) / s.cfg.rbCap) else none) ∧
      t.rb.contents t.cfg.rbCap = (s.rb.contents s.cfg.rbCap).drop k ∧ t.rb.occ = s.rb.occ - k ∧
      (t.rb.calls = if s.rb.calls + 1 = s.cfg.reportEvery then 0 else s.rb.calls + 1) ∧
      t.rb.buf = s.rb.buf ∧ t.rb.wr = s.rb.wr ∧
      SameShadow s t ∧ SameUnitsExcept [] s t ∧ t.cfg = s.cfg ∧ t.queue = s.queue ∧ t.cyc = s.cyc ∧
      t.sample = s.sample ∧ t.rs = s.rs

/-- The ring buffer is a FIFO queue (R99, R350, R354): over every run of writes and reads, the samples buffered at first and
those accepted are, in order, the samples delivered and those buffered at last. -/
def Obligations.RingBufferIsAQueue : Prop :=
  ∀ (s t : State) (calls : List RingCall) (acc del : List Rat), s.rb.Inv s.cfg → RingRun s calls acc del t →
    s.rb.contents s.cfg.rbCap ++ acc = del ++ t.rb.contents t.cfg.rbCap

/-! RESET. -/

/-- RESET runs in every state and gives every field its reset value, keeping the configuration and the stimuli to come (R38,
R386). The noise seed and the resampler's values are D0's; the others are the spec's decision D22 (log 8). -/
def Obligations.ResetReturnsEveryFieldToItsResetValue : Prop :=
  ∀ s : State, ∃ t, exec .reset s = .next t ∧ t.response = .nothing ∧ t.cfg = s.cfg ∧ t.queue = s.queue ∧
    (∀ a, t.shadow.read a = 0) ∧ t.busLatch = 0 ∧ t.cyc = 0 ∧ t.sample = none ∧
    t.fs = ⟨.fourStep, false, false, 0, none⟩ ∧
    (∀ id, t.pulse id = ⟨false, 0, 0, 0, 0, 0, false, ⟨0, 0, false, false, false, 0⟩, ⟨false, 0, false, 0, 0, false⟩⟩) ∧
    t.tri = ⟨false, 0, 0, 0, 0, false, 0, 0, false⟩ ∧
    t.noi = ⟨false, false, 0, 0, 1, 0, false, ⟨0, 0, false, false, false, 0⟩⟩ ∧
    t.dmc = ⟨false, false, 0, 0, 0, 0, 0, 0x8000, 0, 0, 0, false, false⟩ ∧
    (∀ k : Fin 4, t.rs.ring[k] = 0) ∧ t.rs.idx = 0 ∧ t.rs.n = 0 ∧ t.rs.pos = 0 ∧ t.rs.step = s.cfg.baseStep ∧
    t.rs.out = [] ∧ t.rb.buf = List.replicate s.cfg.rbCap 0 ∧ t.rb.wr = 0 ∧ t.rb.rd = 0 ∧ t.rb.occ = 0 ∧
    t.rb.calls = 0

/-- After RESET every channel is inactive and silent, and the first mixed sample is exactly `-1` (R38, R377, R386, R430), in
any configuration. -/
def Obligations.FirstSampleAfterResetIsMinusOne : Prop :=
  ∀ s t u v : State, exec .reset s = .next t → exec .clock t = .next u → exec .rd4015 t = .next v →
    u.sample = some (-1) ∧ u.rs.n = 1 ∧ u.rs.pos = 1 ∧ u.cyc = 1 ∧ v.response = .byte 0
end

