-- ==== Sys2Proof/Laws/State.lean ====
section
/-! SUPPORT. One lemma per field per update of the state: an update sets its own field and leaves the others. -/
namespace Sys2Proof.Machine.State

variable (s : State)

@[simp] theorem withQueue_cfg (x : List Stimulus) : (s.withQueue x).cfg = s.cfg := rfl
@[simp] theorem withQueue_queue (x : List Stimulus) : (s.withQueue x).queue = x := rfl
@[simp] theorem withQueue_response (x : List Stimulus) : (s.withQueue x).response = s.response := rfl
@[simp] theorem withQueue_shadow (x : List Stimulus) : (s.withQueue x).shadow = s.shadow := rfl
@[simp] theorem withQueue_busLatch (x : List Stimulus) : (s.withQueue x).busLatch = s.busLatch := rfl
@[simp] theorem withQueue_cyc (x : List Stimulus) : (s.withQueue x).cyc = s.cyc := rfl
@[simp] theorem withQueue_sample (x : List Stimulus) : (s.withQueue x).sample = s.sample := rfl
@[simp] theorem withQueue_fs (x : List Stimulus) : (s.withQueue x).fs = s.fs := rfl
@[simp] theorem withQueue_p1 (x : List Stimulus) : (s.withQueue x).p1 = s.p1 := rfl
@[simp] theorem withQueue_p2 (x : List Stimulus) : (s.withQueue x).p2 = s.p2 := rfl
@[simp] theorem withQueue_tri (x : List Stimulus) : (s.withQueue x).tri = s.tri := rfl
@[simp] theorem withQueue_noi (x : List Stimulus) : (s.withQueue x).noi = s.noi := rfl
@[simp] theorem withQueue_dmc (x : List Stimulus) : (s.withQueue x).dmc = s.dmc := rfl
@[simp] theorem withQueue_rs (x : List Stimulus) : (s.withQueue x).rs = s.rs := rfl
@[simp] theorem withQueue_rb (x : List Stimulus) : (s.withQueue x).rb = s.rb := rfl

@[simp] theorem withResponse_cfg (x : Response) : (s.withResponse x).cfg = s.cfg := rfl
@[simp] theorem withResponse_queue (x : Response) : (s.withResponse x).queue = s.queue := rfl
@[simp] theorem withResponse_response (x : Response) : (s.withResponse x).response = x := rfl
@[simp] theorem withResponse_shadow (x : Response) : (s.withResponse x).shadow = s.shadow := rfl
@[simp] theorem withResponse_busLatch (x : Response) : (s.withResponse x).busLatch = s.busLatch := rfl
@[simp] theorem withResponse_cyc (x : Response) : (s.withResponse x).cyc = s.cyc := rfl
@[simp] theorem withResponse_sample (x : Response) : (s.withResponse x).sample = s.sample := rfl
@[simp] theorem withResponse_fs (x : Response) : (s.withResponse x).fs = s.fs := rfl
@[simp] theorem withResponse_p1 (x : Response) : (s.withResponse x).p1 = s.p1 := rfl
@[simp] theorem withResponse_p2 (x : Response) : (s.withResponse x).p2 = s.p2 := rfl
@[simp] theorem withResponse_tri (x : Response) : (s.withResponse x).tri = s.tri := rfl
@[simp] theorem withResponse_noi (x : Response) : (s.withResponse x).noi = s.noi := rfl
@[simp] theorem withResponse_dmc (x : Response) : (s.withResponse x).dmc = s.dmc := rfl
@[simp] theorem withResponse_rs (x : Response) : (s.withResponse x).rs = s.rs := rfl
@[simp] theorem withResponse_rb (x : Response) : (s.withResponse x).rb = s.rb := rfl

@[simp] theorem withShadow_cfg (x : Memory) : (s.withShadow x).cfg = s.cfg := rfl
@[simp] theorem withShadow_queue (x : Memory) : (s.withShadow x).queue = s.queue := rfl
@[simp] theorem withShadow_response (x : Memory) : (s.withShadow x).response = s.response := rfl
@[simp] theorem withShadow_shadow (x : Memory) : (s.withShadow x).shadow = x := rfl
@[simp] theorem withShadow_busLatch (x : Memory) : (s.withShadow x).busLatch = s.busLatch := rfl
@[simp] theorem withShadow_cyc (x : Memory) : (s.withShadow x).cyc = s.cyc := rfl
@[simp] theorem withShadow_sample (x : Memory) : (s.withShadow x).sample = s.sample := rfl
@[simp] theorem withShadow_fs (x : Memory) : (s.withShadow x).fs = s.fs := rfl
@[simp] theorem withShadow_p1 (x : Memory) : (s.withShadow x).p1 = s.p1 := rfl
@[simp] theorem withShadow_p2 (x : Memory) : (s.withShadow x).p2 = s.p2 := rfl
@[simp] theorem withShadow_tri (x : Memory) : (s.withShadow x).tri = s.tri := rfl
@[simp] theorem withShadow_noi (x : Memory) : (s.withShadow x).noi = s.noi := rfl
@[simp] theorem withShadow_dmc (x : Memory) : (s.withShadow x).dmc = s.dmc := rfl
@[simp] theorem withShadow_rs (x : Memory) : (s.withShadow x).rs = s.rs := rfl
@[simp] theorem withShadow_rb (x : Memory) : (s.withShadow x).rb = s.rb := rfl

@[simp] theorem withBusLatch_cfg (x : Byte) : (s.withBusLatch x).cfg = s.cfg := rfl
@[simp] theorem withBusLatch_queue (x : Byte) : (s.withBusLatch x).queue = s.queue := rfl
@[simp] theorem withBusLatch_response (x : Byte) : (s.withBusLatch x).response = s.response := rfl
@[simp] theorem withBusLatch_shadow (x : Byte) : (s.withBusLatch x).shadow = s.shadow := rfl
@[simp] theorem withBusLatch_busLatch (x : Byte) : (s.withBusLatch x).busLatch = x := rfl
@[simp] theorem withBusLatch_cyc (x : Byte) : (s.withBusLatch x).cyc = s.cyc := rfl
@[simp] theorem withBusLatch_sample (x : Byte) : (s.withBusLatch x).sample = s.sample := rfl
@[simp] theorem withBusLatch_fs (x : Byte) : (s.withBusLatch x).fs = s.fs := rfl
@[simp] theorem withBusLatch_p1 (x : Byte) : (s.withBusLatch x).p1 = s.p1 := rfl
@[simp] theorem withBusLatch_p2 (x : Byte) : (s.withBusLatch x).p2 = s.p2 := rfl
@[simp] theorem withBusLatch_tri (x : Byte) : (s.withBusLatch x).tri = s.tri := rfl
@[simp] theorem withBusLatch_noi (x : Byte) : (s.withBusLatch x).noi = s.noi := rfl
@[simp] theorem withBusLatch_dmc (x : Byte) : (s.withBusLatch x).dmc = s.dmc := rfl
@[simp] theorem withBusLatch_rs (x : Byte) : (s.withBusLatch x).rs = s.rs := rfl
@[simp] theorem withBusLatch_rb (x : Byte) : (s.withBusLatch x).rb = s.rb := rfl

@[simp] theorem withCyc_cfg (x : Nat) : (s.withCyc x).cfg = s.cfg := rfl
@[simp] theorem withCyc_queue (x : Nat) : (s.withCyc x).queue = s.queue := rfl
@[simp] theorem withCyc_response (x : Nat) : (s.withCyc x).response = s.response := rfl
@[simp] theorem withCyc_shadow (x : Nat) : (s.withCyc x).shadow = s.shadow := rfl
@[simp] theorem withCyc_busLatch (x : Nat) : (s.withCyc x).busLatch = s.busLatch := rfl
@[simp] theorem withCyc_cyc (x : Nat) : (s.withCyc x).cyc = x := rfl
@[simp] theorem withCyc_sample (x : Nat) : (s.withCyc x).sample = s.sample := rfl
@[simp] theorem withCyc_fs (x : Nat) : (s.withCyc x).fs = s.fs := rfl
@[simp] theorem withCyc_p1 (x : Nat) : (s.withCyc x).p1 = s.p1 := rfl
@[simp] theorem withCyc_p2 (x : Nat) : (s.withCyc x).p2 = s.p2 := rfl
@[simp] theorem withCyc_tri (x : Nat) : (s.withCyc x).tri = s.tri := rfl
@[simp] theorem withCyc_noi (x : Nat) : (s.withCyc x).noi = s.noi := rfl
@[simp] theorem withCyc_dmc (x : Nat) : (s.withCyc x).dmc = s.dmc := rfl
@[simp] theorem withCyc_rs (x : Nat) : (s.withCyc x).rs = s.rs := rfl
@[simp] theorem withCyc_rb (x : Nat) : (s.withCyc x).rb = s.rb := rfl

@[simp] theorem withSample_cfg (x : Option Rat) : (s.withSample x).cfg = s.cfg := rfl
@[simp] theorem withSample_queue (x : Option Rat) : (s.withSample x).queue = s.queue := rfl
@[simp] theorem withSample_response (x : Option Rat) : (s.withSample x).response = s.response := rfl
@[simp] theorem withSample_shadow (x : Option Rat) : (s.withSample x).shadow = s.shadow := rfl
@[simp] theorem withSample_busLatch (x : Option Rat) : (s.withSample x).busLatch = s.busLatch := rfl
@[simp] theorem withSample_cyc (x : Option Rat) : (s.withSample x).cyc = s.cyc := rfl
@[simp] theorem withSample_sample (x : Option Rat) : (s.withSample x).sample = x := rfl
@[simp] theorem withSample_fs (x : Option Rat) : (s.withSample x).fs = s.fs := rfl
@[simp] theorem withSample_p1 (x : Option Rat) : (s.withSample x).p1 = s.p1 := rfl
@[simp] theorem withSample_p2 (x : Option Rat) : (s.withSample x).p2 = s.p2 := rfl
@[simp] theorem withSample_tri (x : Option Rat) : (s.withSample x).tri = s.tri := rfl
@[simp] theorem withSample_noi (x : Option Rat) : (s.withSample x).noi = s.noi := rfl
@[simp] theorem withSample_dmc (x : Option Rat) : (s.withSample x).dmc = s.dmc := rfl
@[simp] theorem withSample_rs (x : Option Rat) : (s.withSample x).rs = s.rs := rfl
@[simp] theorem withSample_rb (x : Option Rat) : (s.withSample x).rb = s.rb := rfl

@[simp] theorem withFs_cfg (x : FrameSeq) : (s.withFs x).cfg = s.cfg := rfl
@[simp] theorem withFs_queue (x : FrameSeq) : (s.withFs x).queue = s.queue := rfl
@[simp] theorem withFs_response (x : FrameSeq) : (s.withFs x).response = s.response := rfl
@[simp] theorem withFs_shadow (x : FrameSeq) : (s.withFs x).shadow = s.shadow := rfl
@[simp] theorem withFs_busLatch (x : FrameSeq) : (s.withFs x).busLatch = s.busLatch := rfl
@[simp] theorem withFs_cyc (x : FrameSeq) : (s.withFs x).cyc = s.cyc := rfl
@[simp] theorem withFs_sample (x : FrameSeq) : (s.withFs x).sample = s.sample := rfl
@[simp] theorem withFs_fs (x : FrameSeq) : (s.withFs x).fs = x := rfl
@[simp] theorem withFs_p1 (x : FrameSeq) : (s.withFs x).p1 = s.p1 := rfl
@[simp] theorem withFs_p2 (x : FrameSeq) : (s.withFs x).p2 = s.p2 := rfl
@[simp] theorem withFs_tri (x : FrameSeq) : (s.withFs x).tri = s.tri := rfl
@[simp] theorem withFs_noi (x : FrameSeq) : (s.withFs x).noi = s.noi := rfl
@[simp] theorem withFs_dmc (x : FrameSeq) : (s.withFs x).dmc = s.dmc := rfl
@[simp] theorem withFs_rs (x : FrameSeq) : (s.withFs x).rs = s.rs := rfl
@[simp] theorem withFs_rb (x : FrameSeq) : (s.withFs x).rb = s.rb := rfl

@[simp] theorem withP1_cfg (x : Pulse) : (s.withP1 x).cfg = s.cfg := rfl
@[simp] theorem withP1_queue (x : Pulse) : (s.withP1 x).queue = s.queue := rfl
@[simp] theorem withP1_response (x : Pulse) : (s.withP1 x).response = s.response := rfl
@[simp] theorem withP1_shadow (x : Pulse) : (s.withP1 x).shadow = s.shadow := rfl
@[simp] theorem withP1_busLatch (x : Pulse) : (s.withP1 x).busLatch = s.busLatch := rfl
@[simp] theorem withP1_cyc (x : Pulse) : (s.withP1 x).cyc = s.cyc := rfl
@[simp] theorem withP1_sample (x : Pulse) : (s.withP1 x).sample = s.sample := rfl
@[simp] theorem withP1_fs (x : Pulse) : (s.withP1 x).fs = s.fs := rfl
@[simp] theorem withP1_p1 (x : Pulse) : (s.withP1 x).p1 = x := rfl
@[simp] theorem withP1_p2 (x : Pulse) : (s.withP1 x).p2 = s.p2 := rfl
@[simp] theorem withP1_tri (x : Pulse) : (s.withP1 x).tri = s.tri := rfl
@[simp] theorem withP1_noi (x : Pulse) : (s.withP1 x).noi = s.noi := rfl
@[simp] theorem withP1_dmc (x : Pulse) : (s.withP1 x).dmc = s.dmc := rfl
@[simp] theorem withP1_rs (x : Pulse) : (s.withP1 x).rs = s.rs := rfl
@[simp] theorem withP1_rb (x : Pulse) : (s.withP1 x).rb = s.rb := rfl

@[simp] theorem withP2_cfg (x : Pulse) : (s.withP2 x).cfg = s.cfg := rfl
@[simp] theorem withP2_queue (x : Pulse) : (s.withP2 x).queue = s.queue := rfl
@[simp] theorem withP2_response (x : Pulse) : (s.withP2 x).response = s.response := rfl
@[simp] theorem withP2_shadow (x : Pulse) : (s.withP2 x).shadow = s.shadow := rfl
@[simp] theorem withP2_busLatch (x : Pulse) : (s.withP2 x).busLatch = s.busLatch := rfl
@[simp] theorem withP2_cyc (x : Pulse) : (s.withP2 x).cyc = s.cyc := rfl
@[simp] theorem withP2_sample (x : Pulse) : (s.withP2 x).sample = s.sample := rfl
@[simp] theorem withP2_fs (x : Pulse) : (s.withP2 x).fs = s.fs := rfl
@[simp] theorem withP2_p1 (x : Pulse) : (s.withP2 x).p1 = s.p1 := rfl
@[simp] theorem withP2_p2 (x : Pulse) : (s.withP2 x).p2 = x := rfl
@[simp] theorem withP2_tri (x : Pulse) : (s.withP2 x).tri = s.tri := rfl
@[simp] theorem withP2_noi (x : Pulse) : (s.withP2 x).noi = s.noi := rfl
@[simp] theorem withP2_dmc (x : Pulse) : (s.withP2 x).dmc = s.dmc := rfl
@[simp] theorem withP2_rs (x : Pulse) : (s.withP2 x).rs = s.rs := rfl
@[simp] theorem withP2_rb (x : Pulse) : (s.withP2 x).rb = s.rb := rfl

@[simp] theorem withTri_cfg (x : Triangle) : (s.withTri x).cfg = s.cfg := rfl
@[simp] theorem withTri_queue (x : Triangle) : (s.withTri x).queue = s.queue := rfl
@[simp] theorem withTri_response (x : Triangle) : (s.withTri x).response = s.response := rfl
@[simp] theorem withTri_shadow (x : Triangle) : (s.withTri x).shadow = s.shadow := rfl
@[simp] theorem withTri_busLatch (x : Triangle) : (s.withTri x).busLatch = s.busLatch := rfl
@[simp] theorem withTri_cyc (x : Triangle) : (s.withTri x).cyc = s.cyc := rfl
@[simp] theorem withTri_sample (x : Triangle) : (s.withTri x).sample = s.sample := rfl
@[simp] theorem withTri_fs (x : Triangle) : (s.withTri x).fs = s.fs := rfl
@[simp] theorem withTri_p1 (x : Triangle) : (s.withTri x).p1 = s.p1 := rfl
@[simp] theorem withTri_p2 (x : Triangle) : (s.withTri x).p2 = s.p2 := rfl
@[simp] theorem withTri_tri (x : Triangle) : (s.withTri x).tri = x := rfl
@[simp] theorem withTri_noi (x : Triangle) : (s.withTri x).noi = s.noi := rfl
@[simp] theorem withTri_dmc (x : Triangle) : (s.withTri x).dmc = s.dmc := rfl
@[simp] theorem withTri_rs (x : Triangle) : (s.withTri x).rs = s.rs := rfl
@[simp] theorem withTri_rb (x : Triangle) : (s.withTri x).rb = s.rb := rfl

@[simp] theorem withNoi_cfg (x : Noise) : (s.withNoi x).cfg = s.cfg := rfl
@[simp] theorem withNoi_queue (x : Noise) : (s.withNoi x).queue = s.queue := rfl
@[simp] theorem withNoi_response (x : Noise) : (s.withNoi x).response = s.response := rfl
@[simp] theorem withNoi_shadow (x : Noise) : (s.withNoi x).shadow = s.shadow := rfl
@[simp] theorem withNoi_busLatch (x : Noise) : (s.withNoi x).busLatch = s.busLatch := rfl
@[simp] theorem withNoi_cyc (x : Noise) : (s.withNoi x).cyc = s.cyc := rfl
@[simp] theorem withNoi_sample (x : Noise) : (s.withNoi x).sample = s.sample := rfl
@[simp] theorem withNoi_fs (x : Noise) : (s.withNoi x).fs = s.fs := rfl
@[simp] theorem withNoi_p1 (x : Noise) : (s.withNoi x).p1 = s.p1 := rfl
@[simp] theorem withNoi_p2 (x : Noise) : (s.withNoi x).p2 = s.p2 := rfl
@[simp] theorem withNoi_tri (x : Noise) : (s.withNoi x).tri = s.tri := rfl
@[simp] theorem withNoi_noi (x : Noise) : (s.withNoi x).noi = x := rfl
@[simp] theorem withNoi_dmc (x : Noise) : (s.withNoi x).dmc = s.dmc := rfl
@[simp] theorem withNoi_rs (x : Noise) : (s.withNoi x).rs = s.rs := rfl
@[simp] theorem withNoi_rb (x : Noise) : (s.withNoi x).rb = s.rb := rfl

@[simp] theorem withDmc_cfg (x : Dmc) : (s.withDmc x).cfg = s.cfg := rfl
@[simp] theorem withDmc_queue (x : Dmc) : (s.withDmc x).queue = s.queue := rfl
@[simp] theorem withDmc_response (x : Dmc) : (s.withDmc x).response = s.response := rfl
@[simp] theorem withDmc_shadow (x : Dmc) : (s.withDmc x).shadow = s.shadow := rfl
@[simp] theorem withDmc_busLatch (x : Dmc) : (s.withDmc x).busLatch = s.busLatch := rfl
@[simp] theorem withDmc_cyc (x : Dmc) : (s.withDmc x).cyc = s.cyc := rfl
@[simp] theorem withDmc_sample (x : Dmc) : (s.withDmc x).sample = s.sample := rfl
@[simp] theorem withDmc_fs (x : Dmc) : (s.withDmc x).fs = s.fs := rfl
@[simp] theorem withDmc_p1 (x : Dmc) : (s.withDmc x).p1 = s.p1 := rfl
@[simp] theorem withDmc_p2 (x : Dmc) : (s.withDmc x).p2 = s.p2 := rfl
@[simp] theorem withDmc_tri (x : Dmc) : (s.withDmc x).tri = s.tri := rfl
@[simp] theorem withDmc_noi (x : Dmc) : (s.withDmc x).noi = s.noi := rfl
@[simp] theorem withDmc_dmc (x : Dmc) : (s.withDmc x).dmc = x := rfl
@[simp] theorem withDmc_rs (x : Dmc) : (s.withDmc x).rs = s.rs := rfl
@[simp] theorem withDmc_rb (x : Dmc) : (s.withDmc x).rb = s.rb := rfl

@[simp] theorem withRs_cfg (x : Resampler) : (s.withRs x).cfg = s.cfg := rfl
@[simp] theorem withRs_queue (x : Resampler) : (s.withRs x).queue = s.queue := rfl
@[simp] theorem withRs_response (x : Resampler) : (s.withRs x).response = s.response := rfl
@[simp] theorem withRs_shadow (x : Resampler) : (s.withRs x).shadow = s.shadow := rfl
@[simp] theorem withRs_busLatch (x : Resampler) : (s.withRs x).busLatch = s.busLatch := rfl
@[simp] theorem withRs_cyc (x : Resampler) : (s.withRs x).cyc = s.cyc := rfl
@[simp] theorem withRs_sample (x : Resampler) : (s.withRs x).sample = s.sample := rfl
@[simp] theorem withRs_fs (x : Resampler) : (s.withRs x).fs = s.fs := rfl
@[simp] theorem withRs_p1 (x : Resampler) : (s.withRs x).p1 = s.p1 := rfl
@[simp] theorem withRs_p2 (x : Resampler) : (s.withRs x).p2 = s.p2 := rfl
@[simp] theorem withRs_tri (x : Resampler) : (s.withRs x).tri = s.tri := rfl
@[simp] theorem withRs_noi (x : Resampler) : (s.withRs x).noi = s.noi := rfl
@[simp] theorem withRs_dmc (x : Resampler) : (s.withRs x).dmc = s.dmc := rfl
@[simp] theorem withRs_rs (x : Resampler) : (s.withRs x).rs = x := rfl
@[simp] theorem withRs_rb (x : Resampler) : (s.withRs x).rb = s.rb := rfl

@[simp] theorem withRb_cfg (x : RingBuffer) : (s.withRb x).cfg = s.cfg := rfl
@[simp] theorem withRb_queue (x : RingBuffer) : (s.withRb x).queue = s.queue := rfl
@[simp] theorem withRb_response (x : RingBuffer) : (s.withRb x).response = s.response := rfl
@[simp] theorem withRb_shadow (x : RingBuffer) : (s.withRb x).shadow = s.shadow := rfl
@[simp] theorem withRb_busLatch (x : RingBuffer) : (s.withRb x).busLatch = s.busLatch := rfl
@[simp] theorem withRb_cyc (x : RingBuffer) : (s.withRb x).cyc = s.cyc := rfl
@[simp] theorem withRb_sample (x : RingBuffer) : (s.withRb x).sample = s.sample := rfl
@[simp] theorem withRb_fs (x : RingBuffer) : (s.withRb x).fs = s.fs := rfl
@[simp] theorem withRb_p1 (x : RingBuffer) : (s.withRb x).p1 = s.p1 := rfl
@[simp] theorem withRb_p2 (x : RingBuffer) : (s.withRb x).p2 = s.p2 := rfl
@[simp] theorem withRb_tri (x : RingBuffer) : (s.withRb x).tri = s.tri := rfl
@[simp] theorem withRb_noi (x : RingBuffer) : (s.withRb x).noi = s.noi := rfl
@[simp] theorem withRb_dmc (x : RingBuffer) : (s.withRb x).dmc = s.dmc := rfl
@[simp] theorem withRb_rs (x : RingBuffer) : (s.withRb x).rs = s.rs := rfl
@[simp] theorem withRb_rb (x : RingBuffer) : (s.withRb x).rb = x := rfl

/-- A pulse channel read after its write. -/
@[simp] theorem pulse_withPulse_same (id : PulseId) (p : Pulse) : (s.withPulse id p).pulse id = p := by
  cases id <;> rfl

@[simp] theorem withPulse_one (p : Pulse) : s.withPulse .one p = s.withP1 p := rfl
@[simp] theorem withPulse_two (p : Pulse) : s.withPulse .two p = s.withP2 p := rfl

end Sys2Proof.Machine.State
end

