-- ==== Sys2Proof/Laws/Config.lean ====
section
/-! SUPPORT. The value of each literal of the configuration, from `Cfg.Source` (R7). -/
namespace Sys2Proof.Cfg.Source
variable {cfg : Cfg} (h : cfg.Source)
include h

theorem steps4 : cfg.steps4 = [7459, 14913, 22371, 29829] := congrArg Literals.steps4 h
theorem steps5 : cfg.steps5 = [7459, 14913, 22371, 29829, 37281] := congrArg Literals.steps5 h
theorem period4 : cfg.period4 = 29830 := congrArg Literals.period4 h
theorem half4 : cfg.half4 = [2, 4] := congrArg Literals.half4 h
theorem half5 : cfg.half5 = [2, 4, 5] := congrArg Literals.half5 h
theorem fsDelayOdd : cfg.fsDelayOdd = 3 := congrArg Literals.fsDelayOdd h
theorem fsDelayEven : cfg.fsDelayEven = 4 := congrArg Literals.fsDelayEven h
theorem pulseNum : cfg.pulseNum = 9588 / 100 := congrArg Literals.pulseNum h
theorem pulseDenK : cfg.pulseDenK = 8128 := congrArg Literals.pulseDenK h
theorem pulseDenC : cfg.pulseDenC = 100 := congrArg Literals.pulseDenC h
theorem tndNum : cfg.tndNum = 15979 / 100 := congrArg Literals.tndNum h
theorem tndDenC : cfg.tndDenC = 100 := congrArg Literals.tndDenC h
theorem tndTri : cfg.tndTri = 8227 := congrArg Literals.tndTri h
theorem tndNoise : cfg.tndNoise = 12241 := congrArg Literals.tndNoise h
theorem tndDmc : cfg.tndDmc = 22638 := congrArg Literals.tndDmc h
theorem dmcAddrBase : cfg.dmcAddrBase = 0xC000 := congrArg Literals.dmcAddrBase h
theorem dmcAddrScale : cfg.dmcAddrScale = 64 := congrArg Literals.dmcAddrScale h
theorem dmcLenScale : cfg.dmcLenScale = 16 := congrArg Literals.dmcLenScale h
theorem dmcLenBias : cfg.dmcLenBias = 1 := congrArg Literals.dmcLenBias h
theorem dmcWrapFrom : cfg.dmcWrapFrom = 0xFFFF := congrArg Literals.dmcWrapFrom h
theorem dmcWrapTo : cfg.dmcWrapTo = 0x8000 := congrArg Literals.dmcWrapTo h
theorem sweepMuteLow : cfg.sweepMuteLow = 8 := congrArg Literals.sweepMuteLow h
theorem sweepMuteHigh : cfg.sweepMuteHigh = 0x7FF := congrArg Literals.sweepMuteHigh h
theorem triMuteLow : cfg.triMuteLow = 2 := congrArg Literals.triMuteLow h
theorem ratioMin : cfg.ratioMin = 995 / 1000 := congrArg Literals.ratioMin h
theorem ratioMax : cfg.ratioMax = 1005 / 1000 := congrArg Literals.ratioMax h
theorem triSeq : cfg.triSeq = Config.literals.triSeq := congrArg Literals.triSeq h

end Sys2Proof.Cfg.Source
end

