-- ==== Sys2Proof/Laws/Operands.lean ====
section
/-! SUPPORT. Each operand form as the number the spec says it is (R9). -/
namespace Sys2Proof.Machine

/-- A bit of a byte as a field of width 1 (R9). -/
theorem bitSet_eq (v : Byte) (i : Nat) : bitSet v i = v.getLsbD i := by
  rw [bitSet, bitField, BitVec.getLsbD, Nat.testBit_eq_decide_div_mod_eq]
  simp only [Nat.sub_self, Nat.zero_add, Nat.pow_one]
  rfl

namespace Operand

theorem toNat_field (v : Byte) (lo len : Nat) (h : 0 < len) :
    (v.extractLsb' lo len).toNat = bitField v (lo + len - 1) lo := by
  rw [BitVec.extractLsb'_toNat, Nat.shiftRight_eq_div_pow, bitField]
  congr 2
  omega

theorem duty_toNat (v : Byte) : (duty v).toNat = bitField v 7 6 := toNat_field v 6 2 (by decide)
theorem vol_toNat (v : Byte) : (vol v).toNat = bitField v 3 0 := toNat_field v 0 4 (by decide)
theorem sweepPeriod_toNat (v : Byte) : (sweepPeriod v).toNat = bitField v 6 4 := toNat_field v 4 3 (by decide)
theorem sweepShift_toNat (v : Byte) : (sweepShift v).toNat = bitField v 2 0 := toNat_field v 0 3 (by decide)
theorem lengthIndex_toNat (v : Byte) : (lengthIndex v).toNat = bitField v 7 3 := toNat_field v 3 5 (by decide)
theorem timerHigh_toNat (v : Byte) : (timerHigh v).toNat = bitField v 2 0 := toNat_field v 0 3 (by decide)
theorem triReload_toNat (v : Byte) : (triReload v).toNat = bitField v 6 0 := toNat_field v 0 7 (by decide)
theorem noisePeriodIdx_toNat (v : Byte) : (noisePeriodIdx v).toNat = bitField v 3 0 := toNat_field v 0 4 (by decide)
theorem dmcRateIdx_toNat (v : Byte) : (dmcRateIdx v).toNat = bitField v 3 0 := toNat_field v 0 4 (by decide)
theorem dmcLevel_toNat (v : Byte) : (dmcLevel v).toNat = bitField v 6 0 := toNat_field v 0 7 (by decide)

theorem periodLow_toNat (p : BitVec 11) (v : Byte) :
    (periodLow p v).toNat = p.toNat / 256 * 256 + v.toNat := by
  have hp := p.isLt
  have hv := v.isLt
  rw [periodLow, BitVec.toNat_append, BitVec.extractLsb'_toNat, Nat.shiftRight_eq_div_pow,
    ← Nat.shiftLeft_add_eq_or_of_lt hv, Nat.shiftLeft_eq]
  omega

theorem periodHigh_toNat (p : BitVec 11) (v : Byte) :
    (periodHigh p v).toNat = bitField v 2 0 * 256 + p.toNat % 256 := by
  have hl := (p.extractLsb' 0 8).isLt
  rw [periodHigh, BitVec.toNat_append, ← Nat.shiftLeft_add_eq_or_of_lt hl, Nat.shiftLeft_eq, timerHigh_toNat,
    BitVec.extractLsb'_toNat]
  simp

theorem sampleAddr_toNat {cfg : Cfg} (h : cfg.Source) (b : Byte) : (sampleAddr cfg b).toNat = 0xC000 + b.toNat * 64 := by
  have := b.isLt
  simp only [sampleAddr, BitVec.toNat_ofNat, h.dmcAddrBase, h.dmcAddrScale]
  omega

theorem sampleLen_toNat {cfg : Cfg} (h : cfg.Source) (b : Byte) : (sampleLen cfg b).toNat = b.toNat * 16 + 1 := by
  have := b.isLt
  simp only [sampleLen, BitVec.toNat_ofNat, h.dmcLenScale, h.dmcLenBias]
  omega

theorem clampRatio_eq {cfg : Cfg} (h : cfg.Source) (r : Rat) :
    clampRatio cfg r = min (max r (995 / 1000)) (1005 / 1000) := by rw [clampRatio, h.ratioMin, h.ratioMax]

theorem clampRatio_bounds {cfg : Cfg} (h : cfg.Source) (r : Rat) :
    995 / 1000 ≤ clampRatio cfg r ∧ clampRatio cfg r ≤ 1005 / 1000 := by
  rw [clampRatio_eq h]
  exact ⟨le_min (le_max_right _ _) (by norm_num), min_le_right _ _⟩

theorem loadedLength_enabled (cfg : Cfg) (v : Byte) (n : BitVec 8) :
    loadedLength cfg true v n = lengthOf cfg (lengthIndex v) := rfl

theorem loadedLength_disabled (cfg : Cfg) (v : Byte) (n : BitVec 8) : loadedLength cfg false v n = n := rfl

end Operand
end Sys2Proof.Machine
end

