-- ==== Sys2Proof/Laws/Units.lean ====
section
/-! SUPPORT. What the operations on the units do: frame sequencer, envelope, sweep, length counter, channels. -/
namespace Sys2Proof.Machine

/-! Frame sequencer (R151, R157). -/

namespace FrameSeq
variable {fs : FrameSeq} {p : Pending} {cfg : Cfg} {c : Nat}

theorem due_iff : p.due c = true ↔ c = p.issue + p.delay := by simp [Pending.due]

theorem applyPending_none (h : fs.pend = none) : fs.applyPending c = fs := by simp [applyPending, h]

theorem applyPending_waits (h : fs.pend = some p) (hc : c ≠ p.issue + p.delay) : fs.applyPending c = fs := by
  simp [applyPending, h, Pending.due, hc]

theorem applyPending_due (h : fs.pend = some p) (hc : c = p.issue + p.delay) :
    fs.applyPending c = fs.takeEffect p := by
  simp [applyPending, h, Pending.due, hc]

theorem immediate_none (h : fs.pend = none) : fs.immediate c = false := by simp [immediate, h]

theorem immediate_waits (h : fs.pend = some p) (hc : c ≠ p.issue + p.delay) : fs.immediate c = false := by
  simp [immediate, h, Pending.due, hc]

theorem immediate_due (h : fs.pend = some p) (hc : c = p.issue + p.delay) :
    fs.immediate c = p.value.getLsbD 7 := by
  simp only [immediate, h, Pending.due, hc, beq_self_eq_true, Bool.true_and, Operand.fsMode]
  cases p.value.getLsbD 7 <;> rfl

/-- A clock changes the interrupt flag only, once the pending write has been applied. -/
theorem clock_snd : (fs.clock cfg c).2 =
    { fs.applyPending c with irq := (fs.applyPending c).irq || (fs.clock cfg c).1.irqPulse } := rfl

@[simp] theorem clock_mode : (fs.clock cfg c).2.mode = (fs.applyPending c).mode := rfl
@[simp] theorem clock_inhibit : (fs.clock cfg c).2.inhibit = (fs.applyPending c).inhibit := rfl
@[simp] theorem clock_base : (fs.clock cfg c).2.base = (fs.applyPending c).base := rfl
@[simp] theorem clock_pend : (fs.clock cfg c).2.pend = (fs.applyPending c).pend := rfl

/-- While the pending write waits, the events are those of the schedule in force. -/
theorem clock_waits (hp : fs.applyPending c = fs) (hi : fs.immediate c = false) :
    fs.clock cfg c = (fs.schedule cfg c, { fs with irq := fs.irq || (fs.schedule cfg c).irqPulse }) := by
  simp [clock, hp, hi]

/-- Where no write is pending, or the pending one is not due, the schedule in force gives the events and the clock changes the
interrupt flag only. -/
theorem clock_not_due (h : ∀ p ∈ fs.pend, c ≠ p.issue + p.delay) :
    fs.clock cfg c = (fs.schedule cfg c, { fs with irq := fs.irq || (fs.schedule cfg c).irqPulse }) := by
  rcases hp : fs.pend with _ | p
  · rw [clock_waits (applyPending_none hp) (immediate_none hp), hp]
  · rw [clock_waits (applyPending_waits hp (h p hp)) (immediate_waits hp (h p hp)), hp]

/-- The write of `$4017` records the new write, losing an earlier one (R156, R159). -/
theorem write_eq (v : Byte) (w : Nat) :
    fs.write cfg v w = { fs with pend := some { value := v, issue := w, delay := writeDelay cfg w } } := rfl

theorem writeDelay_eq (h : cfg.Source) (w : Nat) : writeDelay cfg w = if w % 2 = 1 then 3 else 4 := by
  rw [writeDelay, h.fsDelayOdd, h.fsDelayEven]

/-- The frame sequencer's invariant is kept by its clock. -/
theorem Inv_clock (h : fs.Inv cfg c) : (fs.clock cfg c).2.Inv cfg (c + 1) := by
  obtain ⟨hb, hp⟩ := h
  rw [FrameSeq.Inv, clock_base, clock_pend]
  cases hpend : fs.pend with
  | none =>
    rw [applyPending_none hpend]
    exact ⟨by omega, by simp [hpend]⟩
  | some p =>
    obtain ⟨h1, h2, h3⟩ := hp p hpend
    by_cases hc : c = p.issue + p.delay
    · rw [applyPending_due hpend hc]
      exact ⟨Nat.le_succ_of_le h1, fun q hq => by simp [takeEffect] at hq⟩
    · rw [applyPending_waits hpend hc]
      refine ⟨by omega, fun q hq => ?_⟩
      obtain rfl : p = q := by simpa [hpend] using hq
      exact ⟨by omega, h2, by omega⟩

/-- The frame sequencer's invariant is kept by a write. -/
theorem Inv_write (h : fs.Inv cfg c) (v : Byte) : (fs.write cfg v c).Inv cfg c := by
  refine ⟨h.1, fun q hq => ?_⟩
  obtain rfl : (⟨v, c, writeDelay cfg c⟩ : Pending) = q := by simpa [write_eq] using hq
  exact ⟨le_refl _, rfl, Nat.le_add_right _ _⟩

end FrameSeq

/-! Envelope (R183). -/

namespace Env
variable {e : Env}

theorem clock_start (h : e.start = true) : e.clock = { e with start := false, decay := 15, div := e.vol } := by
  simp [clock, h]

theorem clock_zero (h : e.start = false) (hd : e.div = 0) :
    e.clock = { e with div := e.vol, decay := e.nextDecay } := by
  simp [clock, h, hd]

theorem clock_count (h : e.start = false) (hd : e.div ≠ 0) : e.clock = { e with div := e.div - 1 } := by
  rw [clock, if_neg (by simp [h]), if_neg hd]

end Env

/-! Decrements of counters. -/

theorem toNat_sub_one {w : Nat} (x : BitVec w) (h : x ≠ 0) : (x - 1).toNat = x.toNat - 1 := by
  have hx : x.toNat ≠ 0 := fun h0 => h (BitVec.eq_of_toNat_eq (by simpa using h0))
  have hlt := x.isLt
  have h1 : 1 < 2 ^ w := by omega
  rw [BitVec.toNat_sub, BitVec.ofNat_eq_ofNat, BitVec.toNat_ofNat, Nat.mod_eq_of_lt h1]
  rw [show 2 ^ w - 1 + x.toNat = x.toNat - 1 + 2 ^ w by omega, Nat.add_mod_right, Nat.mod_eq_of_lt (by omega)]

theorem clockLength_toNat (halt : Bool) (n : BitVec 8) :
    (clockLength halt n).toNat = n.toNat - (if halt then 0 else 1) := by
  unfold clockLength
  cases halt
  · by_cases h : n = 0
    · simp [h]
    · simp only [Bool.false_eq_true, if_false, if_neg h, toNat_sub_one n h]
  · simp

/-! Sweep (R192 to R195). -/

namespace Sweep
variable {sw : Sweep} {cfg : Cfg} {extra : Nat} {cur : BitVec 11}

theorem isMuting_iff (h : cfg.Source) : sw.isMuting cfg cur = true ↔
    cur.toNat < 8 ∨ (sw.negate = false ∧ 0x7FF < cur.toNat + cur.toNat / 2 ^ sw.shift.toNat) := by
  rw [isMuting, h.sweepMuteLow, h.sweepMuteHigh, Nat.shiftRight_eq_div_pow]
  simp

theorem returns_iff : sw.returns cfg cur = true ↔
    sw.div = 0 ∧ sw.enable = true ∧ sw.shift ≠ 0 ∧ sw.isMuting cfg cur = false := by
  simp [returns, and_assoc]

theorem target_negate (h : sw.negate = true) :
    sw.target extra cur = cur.toNat - cur.toNat / 2 ^ sw.shift.toNat - extra := by
  simp [target, h, Nat.shiftRight_eq_div_pow]

theorem target_add (h : sw.negate = false) :
    sw.target extra cur = cur.toNat + cur.toNat / 2 ^ sw.shift.toNat := by
  simp [target, h, Nat.shiftRight_eq_div_pow]

/-- With a shift of at least 1 the subtrahend is at most half of the period. -/
theorem half_le (h : sw.shift ≠ 0) : 2 * (cur.toNat / 2 ^ sw.shift.toNat) ≤ cur.toNat := by
  have h0 : sw.shift.toNat ≠ 0 := fun h0 => h (BitVec.eq_of_toNat_eq (by simpa using h0))
  obtain ⟨k, hk⟩ := Nat.exists_eq_succ_of_ne_zero h0
  have h2 : cur.toNat / 2 ^ sw.shift.toNat ≤ cur.toNat / 2 :=
    Nat.div_le_div_left (by rw [hk, Nat.pow_succ]; have := Nat.two_pow_pos k; omega) (by decide)
  omega

/-- A target that is returned fits 11 bits (R193). -/
theorem target_lt (hc : cfg.Source) (h : sw.returns cfg cur = true) : sw.target extra cur < 2 ^ 11 := by
  obtain ⟨-, -, -, hm⟩ := returns_iff.mp h
  have hlt := cur.isLt
  cases hn : sw.negate with
  | true => exact target_negate hn ▸ Nat.lt_of_le_of_lt ((Nat.sub_le _ _).trans (Nat.sub_le _ _)) hlt
  | false =>
    rw [target_add hn]
    have : ¬ (0x7FF < cur.toNat + cur.toNat / 2 ^ sw.shift.toNat) := fun h' => by
      rw [(isMuting_iff hc).mpr (.inr ⟨hn, h'⟩)] at hm
      cases hm
    omega

theorem clock_fst_some (hc : cfg.Source) {p : BitVec 11} : (sw.clock cfg extra cur).1 = some p ↔
    sw.returns cfg cur = true ∧ p.toNat = sw.target extra cur := by
  unfold clock
  cases h : sw.returns cfg cur
  · simp
  · simp only [if_true, Option.some.injEq, true_and]
    constructor
    · rintro rfl
      exact BitVec.toNat_ofNat .. ▸ Nat.mod_eq_of_lt (target_lt hc h)
    · intro hp
      exact BitVec.eq_of_toNat_eq (by rw [BitVec.toNat_ofNat, Nat.mod_eq_of_lt (target_lt hc h), hp])

theorem clock_fst_none : (sw.clock cfg extra cur).1 = none ↔ sw.returns cfg cur = false := by
  unfold clock
  cases sw.returns cfg cur <;> simp

@[simp] theorem clock_snd : (sw.clock cfg extra cur).2 = sw.tick := rfl

end Sweep

/-! Timers. -/

namespace Pulse
variable {p : Pulse}

theorem clockTimer_zero (h : p.timer = 0) : p.clockTimer = { p with timer := p.period, pos := p.pos + 1 } := by
  simp [clockTimer, h]

theorem clockTimer_count (h : p.timer ≠ 0) : p.clockTimer = { p with timer := p.timer - 1 } := if_neg h

/-- The timer's clock writes the timer and the position only. -/
theorem clockTimer_frame (p : Pulse) : p.clockTimer = { p with timer := p.clockTimer.timer, pos := p.clockTimer.pos } := by
  unfold clockTimer
  split <;> rfl

end Pulse

namespace Triangle
variable {t : Triangle}

theorem clockTimer_zero (h : t.timer = 0) : t.clockTimer =
    { t with timer := t.period, pos := if t.linear ≠ 0 ∧ t.length ≠ 0 then t.pos + 1 else t.pos } := by
  simp [clockTimer, h]

theorem clockTimer_count (h : t.timer ≠ 0) : t.clockTimer = { t with timer := t.timer - 1 } := if_neg h

/-- The timer's clock writes the timer and the position only. -/
theorem clockTimer_frame (t : Triangle) :
    t.clockTimer = { t with timer := t.clockTimer.timer, pos := t.clockTimer.pos } := by
  unfold clockTimer
  split <;> rfl

/-- The linear counter's clock writes the counter and its reload flag only. -/
theorem clockLinearCounter_frame (t : Triangle) : t.clockLinearCounter =
    { t with linear := t.clockLinearCounter.linear, linReload := t.clockLinearCounter.linReload } := by
  unfold clockLinearCounter
  split
  · rfl
  · split <;> rfl

end Triangle

namespace Noise
variable {n : Noise} {cfg : Cfg}

theorem clockTimer_zero (h : n.timer = 0) : n.clockTimer cfg =
    { n with timer := Operand.noiseReload cfg n.periodIdx, lfsr := n.shifted } := by
  simp [clockTimer, h]

theorem clockTimer_count (h : n.timer ≠ 0) : n.clockTimer cfg = { n with timer := n.timer - 1 } := if_neg h

/-- The timer's clock writes the timer and the shift register only. -/
theorem clockTimer_frame (n : Noise) (cfg : Cfg) : n.clockTimer cfg =
    { n with timer := (n.clockTimer cfg).timer, lfsr := (n.clockTimer cfg).lfsr } := by
  unfold clockTimer
  split <;> rfl

/-- The shift as a bit equation: the feedback at the top, the register's bits 14 to 1 below. -/
theorem shifted_getLsbD (n : Noise) (i : Nat) :
    n.shifted.getLsbD i = if i < 14 then n.lfsr.getLsbD (i + 1) else decide (i = 14) && n.feedback := by
  unfold shifted
  rw [BitVec.getLsbD_append]
  by_cases h : i < 14
  · simp [h, Nat.add_comm]
  · simp only [h, if_false, BitVec.getLsbD_ofBool]
    congr 1
    simp only [decide_eq_decide]
    omega

end Noise

/-! DMC. -/

namespace Dmc
variable {d : Dmc} {cfg : Cfg}

theorem request_isSome : d.request.isSome = true ↔ d.active = true ∧ d.bits = 0 ∧ 0 < d.bytes.toNat := by
  unfold request
  split <;> simp_all

theorem request_none : d.request = none ↔ ¬ (d.active = true ∧ d.bits = 0 ∧ 0 < d.bytes.toNat) := by
  unfold request
  split <;> simp_all

theorem clock_zero (h : d.timer = 0) :
    d.clock cfg = { d.consumeBit with timer := Operand.dmcReload cfg d.rateIdx } := by
  simp [clock, h]

theorem clock_count (h : d.timer ≠ 0) : d.clock cfg = { d with timer := d.timer - 1 } := if_neg h

theorem consumeBit_zero (h : d.bits = 0) : d.consumeBit = d := by simp [consumeBit, h]

theorem consumeBit_some (h : d.bits ≠ 0) : d.consumeBit =
    { d with out := deltaLevel (d.shift.getLsbD 0) d.out, shift := d.shift >>> 1, bits := d.bits - 1 } := if_neg h

/-- The delta step saturates at 127 and 0 and does not wrap (R289). -/
theorem deltaLevel_toNat (up : Bool) (out : BitVec 7) :
    (deltaLevel up out).toNat = if up then min (out.toNat + 2) 127 else out.toNat - 2 := by
  have := out.isLt
  unfold deltaLevel
  cases up <;> simp
  all_goals omega

theorem nextSampleAddr_toNat (hc : cfg.Source) (a : BitVec 16) :
    (nextSampleAddr cfg a).toNat = if a.toNat = 0xFFFF then 0x8000 else a.toNat + 1 := by
  have ha := a.isLt
  rw [nextSampleAddr, hc.dmcWrapFrom, hc.dmcWrapTo]
  by_cases h : a = 0xFFFF
  · simp [h]
  · have h' : a.toNat ≠ 0xFFFF := fun h' => h (BitVec.eq_of_toNat_eq (by simpa using h'))
    rw [if_neg h, if_neg h', BitVec.toNat_add]
    simp
    omega

/-- The DMC's invariant is kept by its operations. -/
theorem Inv_start (hc : cfg.Source) (h : d.Inv) : (d.start cfg).Inv := by
  unfold start
  split
  · refine ⟨?_, h.2.1, ?_, ?_⟩ <;> simp only [loadSample, Operand.sampleAddr_toNat hc, Operand.sampleLen_toNat hc]
    · omega
    · simp
    · have := d.lenByte.isLt
      omega
  · exact h

theorem Inv_stop (h : d.Inv) : d.stop.Inv := ⟨h.1, h.2.1, by simp [stop], by simp [stop]⟩

theorem Inv_consumeBit (h : d.Inv) : d.consumeBit.Inv := by
  unfold consumeBit
  split
  · exact h
  · next hb =>
    refine ⟨h.1, ?_, h.2.2.1, h.2.2.2⟩
    have h2 := h.2.1
    simp only [toNat_sub_one d.bits hb]
    omega

theorem Inv_clock (h : d.Inv) : (d.clock cfg).Inv := by
  unfold clock
  split
  · exact Inv_consumeBit h
  · exact h

theorem Inv_loadSampleByte (hc : cfg.Source) (h : d.Inv) (hr : d.request.isSome = true) (b : Byte) : (d.loadSampleByte cfg b).Inv := by
  obtain ⟨ha, hb, hn⟩ := request_isSome.mp hr
  have hne : d.bytes ≠ 0 := fun h0 => by simp [h0] at hn
  have hs := toNat_sub_one d.bytes hne
  have h4 := h.2.2.2
  have haddr : 0x8000 ≤ (nextSampleAddr cfg d.curAddr).toNat := by
    rw [nextSampleAddr_toNat hc]
    have := h.1
    split <;> omega
  unfold loadSampleByte
  split
  · next h0 =>
    unfold endOfSample
    split
    · refine ⟨?_, by simp [loadSample, takeByte], ?_, ?_⟩ <;>
        simp only [loadSample, Operand.sampleAddr_toNat hc, Operand.sampleLen_toNat hc, takeByte]
      · omega
      · simp [ha]
      · have := d.lenByte.isLt
        omega
    · refine ⟨haddr, by simp [takeByte], ?_, ?_⟩
      · simp only [h0]; simp
      · simp only [h0]; simp
  · next h0 =>
    refine ⟨haddr, by simp [takeByte], ?_, ?_⟩
    · have : (d.bytes - 1).toNat ≠ 0 := fun h' => h0 (BitVec.eq_of_toNat_eq (by simpa [takeByte] using h'))
      simp only [takeByte, ha, true_iff]
      omega
    · simp only [takeByte, hs]
      omega

end Dmc
end Sys2Proof.Machine
end

