-- ==== Sys2Proof/Laws/Clock.lean ====
section
/-! SUPPORT. What a CLOCK does to each field of the state, part by part (R378 to R383). -/
namespace Sys2Proof.Machine

variable (s : State) (ev : FrameEvents)

/-! The frame events (R380, R381). -/

@[simp] theorem quarterFrame_cfg : s.quarterFrame.cfg = s.cfg := by simp [State.quarterFrame]
@[simp] theorem quarterFrame_queue : s.quarterFrame.queue = s.queue := by simp [State.quarterFrame]
@[simp] theorem quarterFrame_response : s.quarterFrame.response = s.response := by simp [State.quarterFrame]
@[simp] theorem quarterFrame_shadow : s.quarterFrame.shadow = s.shadow := by simp [State.quarterFrame]
@[simp] theorem quarterFrame_busLatch : s.quarterFrame.busLatch = s.busLatch := by simp [State.quarterFrame]
@[simp] theorem quarterFrame_cyc : s.quarterFrame.cyc = s.cyc := by simp [State.quarterFrame]
@[simp] theorem quarterFrame_sample : s.quarterFrame.sample = s.sample := by simp [State.quarterFrame]
@[simp] theorem quarterFrame_fs : s.quarterFrame.fs = s.fs := by simp [State.quarterFrame]
@[simp] theorem quarterFrame_dmc : s.quarterFrame.dmc = s.dmc := by simp [State.quarterFrame]
@[simp] theorem quarterFrame_rs : s.quarterFrame.rs = s.rs := by simp [State.quarterFrame]
@[simp] theorem quarterFrame_rb : s.quarterFrame.rb = s.rb := by simp [State.quarterFrame]
@[simp] theorem quarterFrame_p1 : s.quarterFrame.p1 = s.p1.clockEnvelope := by simp [State.quarterFrame]
@[simp] theorem quarterFrame_p2 : s.quarterFrame.p2 = s.p2.clockEnvelope := by simp [State.quarterFrame]
@[simp] theorem quarterFrame_tri : s.quarterFrame.tri = s.tri.clockLinearCounter := by simp [State.quarterFrame]
@[simp] theorem quarterFrame_noi : s.quarterFrame.noi = s.noi.clockEnvelope := by simp [State.quarterFrame]

@[simp] theorem halfFrame_cfg : s.halfFrame.cfg = s.cfg := by simp [State.halfFrame]
@[simp] theorem halfFrame_queue : s.halfFrame.queue = s.queue := by simp [State.halfFrame]
@[simp] theorem halfFrame_response : s.halfFrame.response = s.response := by simp [State.halfFrame]
@[simp] theorem halfFrame_shadow : s.halfFrame.shadow = s.shadow := by simp [State.halfFrame]
@[simp] theorem halfFrame_busLatch : s.halfFrame.busLatch = s.busLatch := by simp [State.halfFrame]
@[simp] theorem halfFrame_cyc : s.halfFrame.cyc = s.cyc := by simp [State.halfFrame]
@[simp] theorem halfFrame_sample : s.halfFrame.sample = s.sample := by simp [State.halfFrame]
@[simp] theorem halfFrame_fs : s.halfFrame.fs = s.fs := by simp [State.halfFrame]
@[simp] theorem halfFrame_dmc : s.halfFrame.dmc = s.dmc := by simp [State.halfFrame]
@[simp] theorem halfFrame_rs : s.halfFrame.rs = s.rs := by simp [State.halfFrame]
@[simp] theorem halfFrame_rb : s.halfFrame.rb = s.rb := by simp [State.halfFrame]
@[simp] theorem halfFrame_p1 : s.halfFrame.p1 = s.p1.halfFrame s.cfg (Config.sweepExtra .one) := by simp [State.halfFrame]
@[simp] theorem halfFrame_p2 : s.halfFrame.p2 = s.p2.halfFrame s.cfg (Config.sweepExtra .two) := by simp [State.halfFrame]
@[simp] theorem halfFrame_tri : s.halfFrame.tri = s.tri.clockLength := by simp [State.halfFrame]
@[simp] theorem halfFrame_noi : s.halfFrame.noi = s.noi.clockLength := by simp [State.halfFrame]

theorem frameEvents_eq : s.frameEvents ev =
    if ev.half then (if ev.quarter then s.quarterFrame else s).halfFrame
    else if ev.quarter then s.quarterFrame else s := rfl

@[simp] theorem frameEvents_cfg : (s.frameEvents ev).cfg = s.cfg := by
  cases hq : ev.quarter <;> cases hh : ev.half <;> simp [frameEvents_eq, hq, hh]
@[simp] theorem frameEvents_queue : (s.frameEvents ev).queue = s.queue := by
  cases hq : ev.quarter <;> cases hh : ev.half <;> simp [frameEvents_eq, hq, hh]
@[simp] theorem frameEvents_response : (s.frameEvents ev).response = s.response := by
  cases hq : ev.quarter <;> cases hh : ev.half <;> simp [frameEvents_eq, hq, hh]
@[simp] theorem frameEvents_shadow : (s.frameEvents ev).shadow = s.shadow := by
  cases hq : ev.quarter <;> cases hh : ev.half <;> simp [frameEvents_eq, hq, hh]
@[simp] theorem frameEvents_busLatch : (s.frameEvents ev).busLatch = s.busLatch := by
  cases hq : ev.quarter <;> cases hh : ev.half <;> simp [frameEvents_eq, hq, hh]
@[simp] theorem frameEvents_cyc : (s.frameEvents ev).cyc = s.cyc := by
  cases hq : ev.quarter <;> cases hh : ev.half <;> simp [frameEvents_eq, hq, hh]
@[simp] theorem frameEvents_sample : (s.frameEvents ev).sample = s.sample := by
  cases hq : ev.quarter <;> cases hh : ev.half <;> simp [frameEvents_eq, hq, hh]
@[simp] theorem frameEvents_fs : (s.frameEvents ev).fs = s.fs := by
  cases hq : ev.quarter <;> cases hh : ev.half <;> simp [frameEvents_eq, hq, hh]
@[simp] theorem frameEvents_dmc : (s.frameEvents ev).dmc = s.dmc := by
  cases hq : ev.quarter <;> cases hh : ev.half <;> simp [frameEvents_eq, hq, hh]
@[simp] theorem frameEvents_rs : (s.frameEvents ev).rs = s.rs := by
  cases hq : ev.quarter <;> cases hh : ev.half <;> simp [frameEvents_eq, hq, hh]
@[simp] theorem frameEvents_rb : (s.frameEvents ev).rb = s.rb := by
  cases hq : ev.quarter <;> cases hh : ev.half <;> simp [frameEvents_eq, hq, hh]
theorem frameEvents_p1 : (s.frameEvents ev).p1 =
    if ev.half then (if ev.quarter then s.p1.clockEnvelope else s.p1).halfFrame s.cfg (Config.sweepExtra .one)
    else if ev.quarter then s.p1.clockEnvelope else s.p1 := by
  cases hq : ev.quarter <;> cases hh : ev.half <;> simp [frameEvents_eq, hq, hh]
theorem frameEvents_p2 : (s.frameEvents ev).p2 =
    if ev.half then (if ev.quarter then s.p2.clockEnvelope else s.p2).halfFrame s.cfg (Config.sweepExtra .two)
    else if ev.quarter then s.p2.clockEnvelope else s.p2 := by
  cases hq : ev.quarter <;> cases hh : ev.half <;> simp [frameEvents_eq, hq, hh]
theorem frameEvents_tri : (s.frameEvents ev).tri =
    if ev.half then (if ev.quarter then s.tri.clockLinearCounter else s.tri).clockLength
    else if ev.quarter then s.tri.clockLinearCounter else s.tri := by
  cases hq : ev.quarter <;> cases hh : ev.half <;> simp [frameEvents_eq, hq, hh]
theorem frameEvents_noi : (s.frameEvents ev).noi =
    if ev.half then (if ev.quarter then s.noi.clockEnvelope else s.noi).clockLength
    else if ev.quarter then s.noi.clockEnvelope else s.noi := by
  cases hq : ev.quarter <;> cases hh : ev.half <;> simp [frameEvents_eq, hq, hh]

/-! The frame sequencer's part. -/

@[simp] theorem clockFrame_cfg : s.clockFrame.cfg = s.cfg := by simp [State.clockFrame]
@[simp] theorem clockFrame_queue : s.clockFrame.queue = s.queue := by simp [State.clockFrame]
@[simp] theorem clockFrame_response : s.clockFrame.response = s.response := by simp [State.clockFrame]
@[simp] theorem clockFrame_shadow : s.clockFrame.shadow = s.shadow := by simp [State.clockFrame]
@[simp] theorem clockFrame_busLatch : s.clockFrame.busLatch = s.busLatch := by simp [State.clockFrame]
@[simp] theorem clockFrame_cyc : s.clockFrame.cyc = s.cyc := by simp [State.clockFrame]
@[simp] theorem clockFrame_sample : s.clockFrame.sample = s.sample := by simp [State.clockFrame]
@[simp] theorem clockFrame_dmc : s.clockFrame.dmc = s.dmc := by simp [State.clockFrame]
@[simp] theorem clockFrame_rs : s.clockFrame.rs = s.rs := by simp [State.clockFrame]
@[simp] theorem clockFrame_rb : s.clockFrame.rb = s.rb := by simp [State.clockFrame]
@[simp] theorem clockFrame_fs : s.clockFrame.fs = (s.fs.clock s.cfg s.cyc).2 := by simp [State.clockFrame]
@[simp] theorem clockFrame_timerRuns (b : Bool) : s.clockFrame.timerRuns b = s.timerRuns b := by
  simp [State.timerRuns, State.apuTick]

theorem clockFrame_p1 : s.clockFrame.p1 = (s.frameEvents (s.fs.clock s.cfg s.cyc).1).p1 := by
  simp only [State.clockFrame, frameEvents_p1, State.withFs_p1, State.withFs_cfg]

theorem clockFrame_p2 : s.clockFrame.p2 = (s.frameEvents (s.fs.clock s.cfg s.cyc).1).p2 := by
  simp only [State.clockFrame, frameEvents_p2, State.withFs_p2, State.withFs_cfg]

theorem clockFrame_tri : s.clockFrame.tri = (s.frameEvents (s.fs.clock s.cfg s.cyc).1).tri := by
  simp only [State.clockFrame, frameEvents_tri, State.withFs_tri]

theorem clockFrame_noi : s.clockFrame.noi = (s.frameEvents (s.fs.clock s.cfg s.cyc).1).noi := by
  simp only [State.clockFrame, frameEvents_noi, State.withFs_noi]

/-! The timers' part (R382). -/

/-- A timer runs on every CLOCK, or on those of the APU cycle's parity. -/
theorem timerRuns_iff (b : Bool) : s.timerRuns b = true ↔ b = false ∨ s.cyc % 2 = s.cfg.apuPhase.val := by
  simp [State.timerRuns, State.apuTick]

@[simp] theorem clockTimers_cfg : s.clockTimers.cfg = s.cfg := by simp [State.clockTimers]
@[simp] theorem clockTimers_queue : s.clockTimers.queue = s.queue := by simp [State.clockTimers]
@[simp] theorem clockTimers_response : s.clockTimers.response = s.response := by simp [State.clockTimers]
@[simp] theorem clockTimers_shadow : s.clockTimers.shadow = s.shadow := by simp [State.clockTimers]
@[simp] theorem clockTimers_busLatch : s.clockTimers.busLatch = s.busLatch := by simp [State.clockTimers]
@[simp] theorem clockTimers_cyc : s.clockTimers.cyc = s.cyc := by simp [State.clockTimers]
@[simp] theorem clockTimers_sample : s.clockTimers.sample = s.sample := by simp [State.clockTimers]
@[simp] theorem clockTimers_fs : s.clockTimers.fs = s.fs := by simp [State.clockTimers]
@[simp] theorem clockTimers_rs : s.clockTimers.rs = s.rs := by simp [State.clockTimers]
@[simp] theorem clockTimers_rb : s.clockTimers.rb = s.rb := by simp [State.clockTimers]
@[simp] theorem clockTimers_p1 : s.clockTimers.p1 =
    if s.timerRuns s.cfg.apuDomain.pulse then s.p1.clockTimer else s.p1 := by simp [State.clockTimers]
@[simp] theorem clockTimers_p2 : s.clockTimers.p2 =
    if s.timerRuns s.cfg.apuDomain.pulse then s.p2.clockTimer else s.p2 := by simp [State.clockTimers]
@[simp] theorem clockTimers_tri : s.clockTimers.tri = s.tri.clockTimer := by simp [State.clockTimers]
@[simp] theorem clockTimers_noi : s.clockTimers.noi =
    if s.timerRuns s.cfg.apuDomain.noise then s.noi.clockTimer s.cfg else s.noi := by simp [State.clockTimers]
@[simp] theorem clockTimers_dmc : s.clockTimers.dmc =
    if s.timerRuns s.cfg.apuDomain.dmc then s.dmc.clock s.cfg else s.dmc := by simp [State.clockTimers]

/-! The whole CLOCK. -/

@[simp] theorem clock_cfg : s.clock.cfg = s.cfg := by simp [State.clock, State.produceSample]
@[simp] theorem clock_queue : s.clock.queue = s.queue := by simp [State.clock, State.produceSample]
@[simp] theorem clock_response : s.clock.response = s.response := by simp [State.clock, State.produceSample]
@[simp] theorem clock_shadow : s.clock.shadow = s.shadow := by simp [State.clock, State.produceSample]
@[simp] theorem clock_busLatch : s.clock.busLatch = s.busLatch := by simp [State.clock, State.produceSample]
@[simp] theorem clock_rb : s.clock.rb = s.rb := by simp [State.clock, State.produceSample]
@[simp] theorem clock_cyc : s.clock.cyc = s.cyc + 1 := rfl
@[simp] theorem clock_fs : s.clock.fs = (s.fs.clock s.cfg s.cyc).2 := by
  simp [State.clock, State.produceSample]
@[simp] theorem clock_sample : s.clock.sample = some s.clock.mixed := rfl
@[simp] theorem clock_rs : s.clock.rs = s.rs.push s.cfg.rsOutCap s.clock.mixed := by
  simp only [State.clock, State.produceSample, State.withCyc_rs, State.withRs_rs, clockTimers_rs,
    clockTimers_cfg, clockFrame_rs, clockFrame_cfg]
  rfl
@[simp] theorem clock_dmc : s.clock.dmc = if s.timerRuns s.cfg.apuDomain.dmc then s.dmc.clock s.cfg else s.dmc := by
  simp [State.clock, State.produceSample]
theorem clock_p1 : s.clock.p1 =
    if s.timerRuns s.cfg.apuDomain.pulse then s.clockFrame.p1.clockTimer else s.clockFrame.p1 := by
  simp [State.clock, State.produceSample]
theorem clock_p2 : s.clock.p2 =
    if s.timerRuns s.cfg.apuDomain.pulse then s.clockFrame.p2.clockTimer else s.clockFrame.p2 := by
  simp [State.clock, State.produceSample]
theorem clock_tri : s.clock.tri = s.clockFrame.tri.clockTimer := by
  simp [State.clock, State.produceSample]
theorem clock_noi : s.clock.noi =
    if s.timerRuns s.cfg.apuDomain.noise then s.clockFrame.noi.clockTimer s.cfg else s.clockFrame.noi := by
  simp [State.clock, State.produceSample]

/-! Repeated CLOCKs. -/

theorem clocks_succ (n : Nat) : s.clocks (n + 1) = (s.clocks n).clock := by
  induction n generalizing s with
  | zero => rfl
  | succ n ih => exact ih s.clock

@[simp] theorem clocks_cyc (n : Nat) : (s.clocks n).cyc = s.cyc + n := by
  induction n with
  | zero => rfl
  | succ n ih => rw [clocks_succ, clock_cyc, ih, Nat.add_assoc]

@[simp] theorem clocks_cfg (n : Nat) : (s.clocks n).cfg = s.cfg := by
  induction n with
  | zero => rfl
  | succ n ih => rw [clocks_succ, clock_cfg, ih]

end Sys2Proof.Machine
end

