-- ==== Sys2Proof/Laws/Encoding.lean ====
section
/-! SUPPORT. The stimulus word's fields: packing and unpacking are inverse. -/
namespace Sys2Proof

theorem pack_port (f : Fields) : (pack f).extractLsb' 25 4 = f.port := by
  ext i hi
  simp only [pack, BitVec.getElem_extractLsb', BitVec.getLsbD_append]
  simp [show ¬ 25 + i < 8 by omega, show ¬ 25 + i - 8 < 16 by omega, show ¬ 25 + i - 8 - 16 < 1 by omega,
    show 25 + i - 8 - 16 - 1 = i by omega, BitVec.getLsbD_eq_getElem hi]

theorem pack_rw (f : Fields) : (pack f).extractLsb' 24 1 = f.rw := by
  ext i hi
  obtain rfl : i = 0 := by omega
  simp only [pack, BitVec.getElem_extractLsb', BitVec.getLsbD_append]
  simp

theorem pack_addr (f : Fields) : (pack f).extractLsb' 8 16 = f.addr := by
  ext i hi
  simp only [pack, BitVec.getElem_extractLsb', BitVec.getLsbD_append]
  simp [show ¬ 8 + i < 8 by omega, show ¬ 16 ≤ i by omega, BitVec.getLsbD_eq_getElem hi]

theorem pack_data (f : Fields) : (pack f).extractLsb' 0 8 = f.data := by
  ext i hi
  simp only [pack, BitVec.getElem_extractLsb', BitVec.getLsbD_append]
  simp [show ¬ 8 ≤ i by omega, BitVec.getLsbD_eq_getElem hi]

/-- The fields of a packed word are the fields packed. -/
theorem fieldsOf_pack (f : Fields) : fieldsOf (pack f) = f := by
  cases f
  simp [fieldsOf, pack_port, pack_rw, pack_addr, pack_data]

/-- A word is its fields, packed. -/
theorem pack_fieldsOf (w : StimWord) : pack (fieldsOf w) = w := by
  apply BitVec.eq_of_getLsbD_eq
  intro i hi
  simp only [pack, fieldsOf, BitVec.getLsbD_append, BitVec.getLsbD_extractLsb']
  by_cases h1 : i < 8
  · simp [h1]
  · by_cases h2 : i - 8 < 16
    · simp [h1, h2, show 8 + (i - 8) = i by omega]
    · by_cases h3 : i - 8 - 16 < 1
      · simp [h1, h2, h3, show 24 + (i - 8 - 16) = i by omega]
      · simp [h1, h2, h3, show 25 + (i - 8 - 16 - 1) = i by omega, show i - 8 - 16 - 1 < 4 by omega]

end Sys2Proof
end

