-- ==== Sys2Proof/Laws/Memory.lean ====
section
/-! SUPPORT. The shadow memory: reads after writes, and that the canonical form is kept. -/
namespace Sys2Proof.Machine.Memory

theorem canonFrom_mono {lo lo' : Nat} (h : lo' ≤ lo) {m : Memory} (hm : canonFrom lo m = true) :
    canonFrom lo' m = true := by
  cases m with
  | nil => rfl
  | cons c m =>
    obtain ⟨a, b⟩ := c
    simp only [canonFrom, Bool.and_eq_true, decide_eq_true_eq] at hm ⊢
    exact ⟨⟨⟨by omega, hm.1.1.2⟩, hm.1.2⟩, hm.2⟩

/-- A canonical list starting at `lo` reads as unlisted below `lo`. -/
theorem read_below {lo a : Nat} {m : Memory} (hm : canonFrom lo m = true) (ha : a < lo) :
    read m a = unlisted := by
  induction m generalizing lo with
  | nil => rfl
  | cons c m ih =>
    obtain ⟨x, y⟩ := c
    simp only [canonFrom, Bool.and_eq_true, decide_eq_true_eq] at hm
    rw [read, if_neg (by omega)]
    exact ih hm.2 (by omega)

theorem read_consCell_same {lo a : Nat} {b : Byte} {m : Memory} (hm : canonFrom lo m = true) (ha : a < lo) :
    read (consCell a b m) a = b := by
  unfold consCell
  split
  · next h => rw [read_below hm ha, h]
  · simp [read]

theorem read_consCell_other {a x : Nat} {b : Byte} {m : Memory} (hx : x ≠ a) :
    read (consCell a b m) x = read m x := by
  unfold consCell
  split
  · rfl
  · simp [read, hx]

theorem canonFrom_consCell {lo a : Nat} {b : Byte} {m : Memory} (hm : canonFrom (a + 1) m = true)
    (hl : lo ≤ a) (hh : a ≤ 0x4017) : canonFrom lo (consCell a b m) = true := by
  unfold consCell
  split
  · exact canonFrom_mono (by omega) hm
  · next h => simp [canonFrom, hl, hh, h, hm]

/-- A write inside the register space keeps the canonical form. -/
theorem canonFrom_write {lo a : Nat} {b : Byte} {m : Memory} (hm : canonFrom lo m = true)
    (hl : lo ≤ a) (hh : a ≤ 0x4017) : canonFrom lo (write m a b) = true := by
  induction m generalizing lo with
  | nil => exact canonFrom_consCell rfl hl hh
  | cons c m ih =>
    obtain ⟨x, y⟩ := c
    have hm' := hm
    simp only [canonFrom, Bool.and_eq_true, decide_eq_true_eq] at hm'
    unfold write
    split_ifs with h1 h2
    · refine canonFrom_consCell ?_ hl hh
      simp only [canonFrom, Bool.and_eq_true, decide_eq_true_eq]
      exact ⟨⟨⟨by omega, hm'.1.1.2⟩, hm'.1.2⟩, hm'.2⟩
    · subst h2
      exact canonFrom_consCell hm'.2 hl hh
    · simp only [canonFrom, Bool.and_eq_true, decide_eq_true_eq]
      exact ⟨⟨⟨hm'.1.1.1, hm'.1.1.2⟩, hm'.1.2⟩, ih hm'.2 (by omega)⟩

/-- A read of the written address gives the byte written. -/
theorem canonFrom_read_write {lo a : Nat} {b : Byte} {m : Memory} (hm : canonFrom lo m = true) (hl : lo ≤ a) :
    read (write m a b) a = b := by
  induction m generalizing lo with
  | nil => exact read_consCell_same (lo := a + 1) rfl (by omega)
  | cons c m ih =>
    obtain ⟨x, y⟩ := c
    have hm' := hm
    simp only [canonFrom, Bool.and_eq_true, decide_eq_true_eq] at hm'
    unfold write
    split_ifs with h1 h2
    · refine read_consCell_same (lo := x) ?_ h1
      simp only [canonFrom, Bool.and_eq_true, decide_eq_true_eq]
      exact ⟨⟨⟨le_refl x, hm'.1.1.2⟩, hm'.1.2⟩, hm'.2⟩
    · subst h2
      exact read_consCell_same hm'.2 (by omega)
    · rw [read, if_neg h2]
      exact ih hm'.2 (by omega)

/-- A write leaves every other address as it was. -/
theorem read_write_other {a x : Nat} {b : Byte} {m : Memory} (hx : x ≠ a) :
    read (write m a b) x = read m x := by
  induction m with
  | nil => exact read_consCell_other hx
  | cons c m ih =>
    obtain ⟨y, z⟩ := c
    unfold write
    split_ifs with h1 h2
    · exact read_consCell_other hx
    · subst h2
      rw [read_consCell_other hx, read, if_neg hx]
    · simp only [read]
      split
      · rfl
      · exact ih

theorem busAddress_bounds {offset : Nat} (h : offset < 24) :
    0x4000 ≤ busAddress offset ∧ busAddress offset ≤ 0x4017 := by unfold busAddress; omega

/-- A bus write keeps the shadow memory canonical. -/
theorem wf_write {m : Memory} {offset : Nat} {b : Byte} (hm : m.wf = true) (h : offset < 24) :
    (write m (busAddress offset) b).wf = true :=
  canonFrom_write hm (busAddress_bounds h).1 (busAddress_bounds h).2

/-- A bus write is what a read of its address then gives. -/
theorem read_write_same {m : Memory} {offset : Nat} {b : Byte} (hm : m.wf = true) :
    read (write m (busAddress offset) b) (busAddress offset) = b :=
  canonFrom_read_write hm (by unfold busAddress; omega)

/-- The memory after reset is canonical. -/
theorem wf_nil : wf [] = true := rfl

/-- Canonical memories that read alike are equal. -/
theorem canonFrom_ext {lo : Nat} {m n : Memory} (hm : canonFrom lo m = true) (hn : canonFrom lo n = true)
    (h : ∀ a, read m a = read n a) : m = n := by
  induction m generalizing lo n with
  | nil =>
    cases n with
    | nil => rfl
    | cons c n =>
      obtain ⟨a, b⟩ := c
      simp only [canonFrom, Bool.and_eq_true, decide_eq_true_eq, bne_iff_ne] at hn
      have := h a
      simp only [read, if_true] at this
      exact absurd this.symm hn.1.2
  | cons c m ih =>
    obtain ⟨a, b⟩ := c
    have hm' := hm
    simp only [canonFrom, Bool.and_eq_true, decide_eq_true_eq, bne_iff_ne] at hm'
    cases n with
    | nil =>
      have := h a
      simp only [read, if_true] at this
      exact absurd this hm'.1.2
    | cons d n =>
      obtain ⟨x, y⟩ := d
      have hn' := hn
      simp only [canonFrom, Bool.and_eq_true, decide_eq_true_eq, bne_iff_ne] at hn'
      rcases Nat.lt_trichotomy a x with hlt | heq | hgt
      · have e := h a
        rw [read, if_pos rfl, read, if_neg (by omega), read_below hn'.2 (by omega)] at e
        exact absurd e hm'.1.2
      · subst heq
        have e := h a
        rw [read, if_pos rfl, read, if_pos rfl] at e
        subst e
        have : m = n := by
          refine ih hm'.2 hn'.2 fun k => ?_
          have ek := h k
          simp only [read] at ek
          by_cases hk : k = a
          · subst hk
            rw [read_below hm'.2 (by omega), read_below hn'.2 (by omega)]
          · simpa [hk] using ek
        rw [this]
      · have e := h x
        rw [read, if_neg (by omega), read_below hm'.2 (by omega), read, if_pos rfl] at e
        exact absurd e.symm hn'.1.2

end Sys2Proof.Machine.Memory
end

