-- ==== Sys2Proof/Laws/Ops.lean ====
section
/-! SUPPORT. What the shared operations over the state do: the answer, the latching of a bus write, the open-bus read, the
queue of stimuli. -/
namespace Sys2Proof.Machine

/-! Answers. -/

theorem answer_eq (s : State) (r : Response) : answer s r = .next (s.withResponse r) := rfl

theorem answer_next_iff {s t : State} {r : Response} : answer s r = .next t ↔ s.withResponse r = t :=
  ⟨fun h => by injection h, fun h => h ▸ rfl⟩

/-! A bus write's latching (R82): only the shadow memory and the latch change. -/

section
variable (s : State) (offset : Nat) (v : Byte)
@[simp] theorem latchWrite_cfg : (s.latchWrite offset v).cfg = s.cfg := rfl
@[simp] theorem latchWrite_queue : (s.latchWrite offset v).queue = s.queue := rfl
@[simp] theorem latchWrite_response : (s.latchWrite offset v).response = s.response := rfl
@[simp] theorem latchWrite_shadow : (s.latchWrite offset v).shadow = s.shadow.write (busAddress offset) v := rfl
@[simp] theorem latchWrite_busLatch : (s.latchWrite offset v).busLatch = v := rfl
@[simp] theorem latchWrite_cyc : (s.latchWrite offset v).cyc = s.cyc := rfl
@[simp] theorem latchWrite_sample : (s.latchWrite offset v).sample = s.sample := rfl
@[simp] theorem latchWrite_fs : (s.latchWrite offset v).fs = s.fs := rfl
@[simp] theorem latchWrite_p1 : (s.latchWrite offset v).p1 = s.p1 := rfl
@[simp] theorem latchWrite_p2 : (s.latchWrite offset v).p2 = s.p2 := rfl
@[simp] theorem latchWrite_tri : (s.latchWrite offset v).tri = s.tri := rfl
@[simp] theorem latchWrite_noi : (s.latchWrite offset v).noi = s.noi := rfl
@[simp] theorem latchWrite_dmc : (s.latchWrite offset v).dmc = s.dmc := rfl
@[simp] theorem latchWrite_rs : (s.latchWrite offset v).rs = s.rs := rfl
@[simp] theorem latchWrite_rb : (s.latchWrite offset v).rb = s.rb := rfl
end

/-- A bus write runs, and leaves what a state with the byte latched and the units changed leaves. -/
theorem WriteCompletes.of_answer {i : Instr} {offset : Nat} {v : Byte} {changed : List BlockUnit} {s u : State}
    {R : State → Prop} (hw : s.shadow.wf = true) (h : exec i s = answer u .nothing)
    (hs : u.shadow = s.shadow.write (busAddress offset) v) (hb : u.busLatch = v) (hp : SamePath s u)
    (hu : SameUnitsExcept changed s u) (hR : R (u.withResponse .nothing)) :
    WriteCompletes i offset v changed s R := by
  refine ⟨_, h, rfl, ⟨?_, fun a ha => ?_, hb⟩, hp, hu, hR⟩
  · simp [hs, Memory.read_write_same hw]
  · simp [hs, Memory.read_write_other ha]

/-- An observation runs, and changes nothing. -/
theorem Observes.of_answer {i : Instr} {s : State} {r : Response} (h : exec i s = answer s r) : Observes i s r :=
  ⟨_, h, rfl, ⟨fun _ => rfl, rfl⟩, ⟨rfl, rfl, rfl, rfl, rfl, rfl⟩, by simp [SameUnitsExcept]⟩

/-- A bus write keeps the invariant of the block if its units keep theirs. -/
theorem State.Inv.busWrite {s u : State} {offset : Nat} {v : Byte} (h : s.Inv) (ho : offset < 24)
    (hs : u.shadow = s.shadow.write (busAddress offset) v) (hp : SamePath s u) (hf : u.fs.Inv u.cfg u.cyc) (hn : u.noi.Inv)
    (hd : u.dmc.Inv) : u.Inv := by
  obtain ⟨hv, hsh, hsa, -, -, -, hr, hb⟩ := h
  obtain ⟨hcfg, -, -, hsample, hrs, hrb⟩ := hp
  exact ⟨hcfg ▸ hv, hs ▸ Memory.wf_write hsh ho, hsample ▸ hsa, hf, hn, hd, hcfg ▸ hrs ▸ hr, hcfg ▸ hrb ▸ hb⟩

/-- What changes the response or the stimuli to come only keeps the invariant of the block. -/
theorem State.Inv.withResponse {s : State} (h : s.Inv) (r : Response) : (s.withResponse r).Inv := h
theorem State.Inv.withQueue {s : State} (h : s.Inv) (q : List Stimulus) : (s.withQueue q).Inv := h

/-! The open bus (R88). -/

theorem openBusByte_perOffset {s : State} (h : s.cfg.openBusMode = .perOffset) (offset : Nat) :
    s.openBusByte offset = s.shadow.read (busAddress offset) := by
  simp [State.openBusByte, h]

theorem openBusByte_singleLatch {s : State} (h : s.cfg.openBusMode = .singleLatch) (offset : Nat) :
    s.openBusByte offset = s.busLatch := by
  simp [State.openBusByte, h]

/-! The queue of stimuli. -/

theorem fetch_nil {s : State} (h : s.queue = []) : s.fetch = none := by simp [State.fetch, h]

theorem fetch_cons {s : State} {st : Stimulus} {rest : List Stimulus} (h : s.queue = st :: rest) :
    s.fetch = some (st, s.withQueue rest) := by simp [State.fetch, h]

theorem fetch_issueFirst (s : State) (st : Stimulus) : (s.issueFirst st).fetch = some (st, s) := rfl

@[simp] theorem issue_queue (s : State) (st : Stimulus) : (s.issue st).queue = s.queue ++ [st] := rfl

/-! The pulse channels by number. -/

@[simp] theorem pulse_one (s : State) : s.pulse .one = s.p1 := rfl
@[simp] theorem pulse_two (s : State) : s.pulse .two = s.p2 := rfl
@[simp] theorem withPulse_one (s : State) (p : Pulse) : s.withPulse .one p = s.withP1 p := rfl
@[simp] theorem withPulse_two (s : State) (p : Pulse) : s.withPulse .two p = s.withP2 p := rfl

/-! The stimuli that can fault. -/

/-- DMA_LOAD runs exactly while a request is pending (R296). -/
theorem execDmaLoad_next_iff {b : Byte} {s t : State} :
    execDmaLoad b s = .next t ↔
      s.dmc.request.isSome = true ∧ (s.withDmc (s.dmc.loadSampleByte s.cfg b)).withResponse .nothing = t := by
  unfold execDmaLoad
  cases s.dmc.request with
  | none => simp [contractViolation]
  | some a => simp [answer_next_iff]

/-- RB_READ runs exactly if its count is not negative (R355). -/
theorem execRbRead_next_iff {count : Int} {s t : State} :
    execRbRead count s = .next t ↔ 0 ≤ count ∧ renderRead count.toNat s = .next t := by
  unfold execRbRead
  split
  · next h => simp [contractViolation, h]
  · next h => simp [not_lt.mp h]

end Sys2Proof.Machine
end

