-- ==== Sys2Proof/Laws/Path.lean ====
section
/-! SUPPORT. What the resampler's and the ring buffer's operations do (R330 to R357). -/
namespace Sys2Proof.Machine

namespace Resampler
variable {rs : Resampler} {cap : Nat} {x : Rat}

/-- One sample is appended while there is room. -/
theorem append_length (h : rs.out.length ≤ cap) : (rs.append cap x).length = min cap (rs.out.length + 1) := by
  unfold append
  split
  · simp; omega
  · omega

theorem append_prefix : rs.out <+: rs.append cap x := by
  unfold append
  split
  · exact List.prefix_append ..
  · exact List.prefix_rfl

@[simp] theorem pass_ring : (rs.pass cap).ring = rs.ring := rfl
@[simp] theorem pass_idx : (rs.pass cap).idx = rs.idx := rfl
@[simp] theorem pass_n : (rs.pass cap).n = rs.n := rfl
@[simp] theorem pass_step : (rs.pass cap).step = rs.step := rfl
@[simp] theorem pass_pos : (rs.pass cap).pos = rs.pos - rs.step := rfl

theorem passes_zero : passes cap 0 rs = rs := rfl

theorem passes_go {k : Nat} (h : rs.step ≤ rs.pos) : passes cap (k + 1) rs = passes cap k (rs.pass cap) := if_pos h

theorem passes_stop {k : Nat} (h : rs.pos < rs.step) : passes cap k rs = rs := by
  cases k with
  | zero => rfl
  | succ k => exact if_neg (not_le.mpr h)

/-- The passes keep the ring, the counts and the step. -/
theorem passes_frame (k : Nat) (rs : Resampler) : (passes cap k rs).ring = rs.ring ∧
    (passes cap k rs).idx = rs.idx ∧ (passes cap k rs).n = rs.n ∧ (passes cap k rs).step = rs.step := by
  induction k generalizing rs with
  | zero => exact ⟨rfl, rfl, rfl, rfl⟩
  | succ k ih =>
    by_cases h : rs.step ≤ rs.pos
    · rw [passes_go h]
      exact ih (rs.pass cap)
    · rw [passes_stop (not_le.mp h)]
      exact ⟨rfl, rfl, rfl, rfl⟩

/-- As many passes as the position has steps: the position comes down by them, and each appends a sample while there is
room. -/
theorem passes_spec (k : Nat) (rs : Resampler) (hs : 0 < rs.step) (hk : (k : Rat) * rs.step ≤ rs.pos)
    (hl : rs.out.length ≤ cap) :
    (passes cap k rs).pos = rs.pos - k * rs.step ∧ (passes cap k rs).out.length = min cap (rs.out.length + k) ∧
      rs.out <+: (passes cap k rs).out := by
  induction k generalizing rs with
  | zero => simpa [passes_zero] using hl
  | succ k ih =>
    have h0 : (0 : Rat) ≤ k := Nat.cast_nonneg k
    rw [Nat.cast_succ] at hk
    have hge : rs.step ≤ rs.pos := by nlinarith
    have hl' : (rs.pass cap).out.length = min cap (rs.out.length + 1) := append_length hl
    obtain ⟨h1, h2, h3⟩ := ih (rs.pass cap) hs (by simp; linarith) (by omega)
    rw [passes_go hge]
    refine ⟨?_, by omega, append_prefix.trans h3⟩
    rw [h1, pass_pos, pass_step, Nat.cast_succ]
    ring

/-- What as many passes as the position has steps append: the `j`-th, from 0, the interpolation at its own fraction, while there
is room (R331, R333). -/
theorem passes_out (k : Nat) (rs : Resampler) (hs : 0 < rs.step) (hk : (k : Rat) * rs.step ≤ rs.pos) :
    (passes cap k rs).out = rs.out ++ ((List.range k).map fun j : Nat =>
      rs.interp (1 - (rs.pos - ((j : Rat) + 1) * rs.step) / rs.step)).take (cap - rs.out.length) := by
  induction k generalizing rs with
  | zero => simp [passes_zero]
  | succ k ih =>
    have h0 : (0 : Rat) ≤ k := Nat.cast_nonneg k
    rw [Nat.cast_succ] at hk
    have hfirst : rs.interp (1 - (rs.pos - (((0 : Nat) : Rat) + 1) * rs.step) / rs.step) = rs.interp rs.fraction := by
      simp [fraction]
    have hnext : ∀ j : Nat, (rs.pass cap).interp (1 - ((rs.pass cap).pos - ((j : Rat) + 1) * rs.step) / rs.step) =
        rs.interp (1 - (rs.pos - (((j + 1 : Nat) : Rat) + 1) * rs.step) / rs.step) := fun j => by
      rw [pass_pos]
      change rs.interp _ = _
      congr 3
      push_cast
      ring
    rw [passes_go (by nlinarith), ih (rs.pass cap) hs (by rw [pass_step, pass_pos]; linarith), pass_step,
      List.range_succ_eq_map, List.map_cons, List.map_map, hfirst]
    simp only [hnext, Function.comp_def, Nat.succ_eq_add_one]
    rw [show (rs.pass cap).out = rs.append cap (rs.interp rs.fraction) from rfl, append]
    split
    · next h =>
      rw [show cap - rs.out.length = cap - (rs.out.length + 1) + 1 by omega]
      simp
    · next h => simp [Nat.sub_eq_zero_of_le (not_lt.mp h)]

/-- The pass count is the whole number of steps in the position. -/
theorem passCount_spec (hs : 0 < rs.step) (hp : 0 ≤ rs.pos) :
    (rs.passCount : Rat) * rs.step ≤ rs.pos ∧ rs.pos < (rs.passCount + 1) * rs.step := by
  have h0 : 0 ≤ (rs.pos / rs.step).floor := Rat.le_floor_iff.mpr (by simpa using div_nonneg hp hs.le)
  have hc : (rs.passCount : Rat) = ((rs.pos / rs.step).floor : Rat) := by
    rw [passCount, ← Int.cast_natCast, Int.toNat_of_nonneg h0]
  rw [hc]
  have h1 : ((rs.pos / rs.step).floor : Rat) ≤ rs.pos / rs.step := Rat.floor_le ..
  have h2 : rs.pos / rs.step < ((rs.pos / rs.step).floor : Rat) + 1 := by
    exact_mod_cast Rat.lt_floor_add_one (rs.pos / rs.step)
  exact ⟨(le_div_iff₀ hs).mp h1, (div_lt_iff₀ hs).mp h2⟩

/-- The loop of R331 ends below the step. -/
theorem drain_spec (hs : 0 < rs.step) (hp : 0 ≤ rs.pos) (hl : rs.out.length ≤ cap) :
    0 ≤ (rs.drain cap).pos ∧ (rs.drain cap).pos < rs.step ∧
      (rs.drain cap).pos = rs.pos - rs.passCount * rs.step ∧
      (rs.drain cap).out.length = min cap (rs.out.length + rs.passCount) ∧ rs.out <+: (rs.drain cap).out := by
  obtain ⟨h1, h2⟩ := passCount_spec hs hp
  obtain ⟨h3, h4, h5⟩ := passes_spec (cap := cap) rs.passCount rs hs h1 hl
  exact ⟨by rw [drain, h3]; linarith, by rw [drain, h3]; linarith, h3, h4, h5⟩

@[simp] theorem store_n : (rs.store x).n = if rs.n < 4 then rs.n + 1 else rs.n := rfl
@[simp] theorem store_pos : (rs.store x).pos = rs.pos + 1 := rfl
@[simp] theorem store_step : (rs.store x).step = rs.step := rfl
@[simp] theorem store_out : (rs.store x).out = rs.out := rfl

theorem push_warm (h : (rs.store x).n < 4) : rs.push cap x = rs.store x := if_pos h

theorem push_drains (h : ¬ (rs.store x).n < 4) : rs.push cap x = (rs.store x).drain cap := if_neg h

/-- A push stores the sample at the ring's next slot, whatever the passes do. -/
theorem push_frame : (rs.push cap x).ring = (rs.store x).ring ∧ (rs.push cap x).idx = rs.idx + 1 ∧
    (rs.push cap x).n = (rs.store x).n ∧ (rs.push cap x).step = rs.step := by
  unfold push
  split
  · exact ⟨rfl, rfl, rfl, rfl⟩
  · exact passes_frame _ _

/-- The resampler's invariant is kept by a push. -/
theorem Inv_push {cfg : Cfg} (hf : 0 < cfg.baseStep) (h : rs.Inv cfg) (x : Rat) : (rs.push cfg.rsOutCap x).Inv cfg := by
  obtain ⟨hn, hp, h1, h2, hl⟩ := h
  obtain ⟨-, -, fn, fs⟩ := push_frame (rs := rs) (cap := cfg.rsOutCap) (x := x)
  have hs : 0 < rs.step := lt_of_lt_of_le (by positivity) h1
  refine ⟨?_, ?_, fs ▸ h1, fs ▸ h2, ?_⟩
  · rw [fn, store_n]
    split <;> omega
  · by_cases h4 : (rs.store x).n < 4
    · rw [push_warm h4, store_pos]
      linarith
    · rw [push_drains h4]
      exact (drain_spec (rs := rs.store x) hs (by rw [store_pos]; linarith) hl).1
  · by_cases h4 : (rs.store x).n < 4
    · rw [push_warm h4]
      exact hl
    · rw [push_drains h4, (drain_spec (rs := rs.store x) hs (by rw [store_pos]; linarith) hl).2.2.2.1]
      exact min_le_left _ _

/-- The resampler's invariant is kept by a new rate, and holds after a pull. -/
theorem Inv_setRate {cfg : Cfg} (hc : cfg.Source) (hf : 0 < cfg.baseStep) (h : rs.Inv cfg) (r : Rat) : (rs.setRate cfg r).Inv cfg := by
  obtain ⟨hn, hp, -, -, hl⟩ := h
  obtain ⟨b1, b2⟩ := Operand.clampRatio_bounds hc r
  exact ⟨hn, hp, mul_le_mul_of_nonneg_left b1 hf.le, mul_le_mul_of_nonneg_left b2 hf.le, hl⟩

theorem Inv_clearOut {cfg : Cfg} (h : rs.Inv cfg) : rs.clearOut.Inv cfg :=
  ⟨h.1, h.2.1, h.2.2.1, h.2.2.2.1, Nat.zero_le _⟩

theorem Inv_reset {cfg : Cfg} (hf : 0 < cfg.baseStep) : (Resampler.reset cfg).Inv cfg := by
  refine ⟨by simp [reset], by simp [reset], ?_, ?_, by simp [reset]⟩ <;> simp only [reset] <;> linarith

end Resampler

namespace RingBuffer
variable {rb : RingBuffer} {cap : Nat}

/-- The stores of a batch keep the buffer's length and everything but the cells and the write cursor. -/
theorem putAll_frame (l : List Rat) (rb : RingBuffer) : (putAll cap l rb).buf.length = rb.buf.length ∧
    (putAll cap l rb).rd = rb.rd ∧ (putAll cap l rb).occ = rb.occ ∧ (putAll cap l rb).calls = rb.calls := by
  induction l generalizing rb with
  | nil => exact ⟨rfl, rfl, rfl, rfl⟩
  | cons x xs ih =>
    obtain ⟨h1, h2, h3, h4⟩ := ih (rb.put cap x)
    exact ⟨h1.trans (by simp [put]), h2, h3, h4⟩

/-- A batch moves the write cursor by its length. -/
theorem putAll_wr (l : List Rat) (rb : RingBuffer) (h : rb.wr < cap) :
    (putAll cap l rb).wr = (rb.wr + l.length) % cap := by
  induction l generalizing rb with
  | nil => exact (Nat.mod_eq_of_lt h).symm
  | cons x xs ih =>
    have := ih (rb.put cap x) (Nat.mod_lt _ (Nat.zero_lt_of_lt h))
    rw [putAll, this]
    simp only [put, List.length_cons, Nat.mod_add_mod]
    congr 1
    omega

/-- The reads keep the cells, the write cursor, the occupancy and the call count, and move the read cursor. -/
theorem takeMany_frame (k : Nat) (rb : RingBuffer) (h : rb.rd < cap) :
    (takeMany cap k rb).1.length = k ∧ (takeMany cap k rb).2 = { rb with rd := (rb.rd + k) % cap } := by
  induction k generalizing rb with
  | zero => simp [takeMany, Nat.mod_eq_of_lt h]
  | succ k ih =>
    obtain ⟨h1, h2⟩ := ih (rb.advance cap) (Nat.mod_lt _ (Nat.zero_lt_of_lt h))
    refine ⟨by simp [takeMany, h1], ?_⟩
    rw [takeMany, h2]
    simp only [advance, Nat.mod_add_mod]
    congr 2
    omega

/-- The samples read are those at the read cursor and after it. -/
theorem takeMany_fst (k : Nat) (rb : RingBuffer) (h : rb.rd < cap) :
    (takeMany cap k rb).1 = (List.range k).map fun i => rb.buf.getD ((rb.rd + i) % cap) 0 := by
  induction k generalizing rb with
  | zero => rfl
  | succ k ih =>
    rw [takeMany, ih (rb.advance cap) (Nat.mod_lt _ (Nat.zero_lt_of_lt h)), List.range_succ_eq_map]
    simp only [List.map_cons, List.map_map, Nat.add_zero, Nat.mod_eq_of_lt h, front, advance, Nat.mod_add_mod]
    congr 1
    refine List.map_congr_left fun i _ => ?_
    simp only [Function.comp_apply, Nat.succ_eq_add_one]
    congr 2
    omega

/-- A cell of the buffer after the batch: the batch's sample where it was stored, else as before. -/
theorem putAll_getD (l : List Rat) (rb : RingBuffer) (hb : rb.buf.length = cap) (hw : rb.wr < cap)
    (hl : l.length ≤ cap) (j : Nat) (hj : j < cap) :
    (putAll cap l rb).buf.getD ((rb.wr + j) % cap) 0 =
      if j < l.length then l.getD j 0 else rb.buf.getD ((rb.wr + j) % cap) 0 := by
  induction l generalizing rb j with
  | nil => rfl
  | cons x xs ih =>
    have hc : 0 < cap := Nat.zero_lt_of_lt hw
    have hw' : (rb.put cap x).wr < cap := Nat.mod_lt _ hc
    have hb' : (rb.put cap x).buf.length = cap := by simp [put, hb]
    have hl' : xs.length + 1 ≤ cap := hl
    have hput : ∀ i, (rb.put cap x).buf.getD i 0 = if i = rb.wr then x else rb.buf.getD i 0 := fun i => by
      simp only [put, List.getD_eq_getElem?_getD, List.getElem?_set]
      by_cases hi : rb.wr = i
      · subst hi; simp [hb, hw]
      · simp [hi, Ne.symm hi]
    rw [putAll]
    cases j with
    | zero =>
      have hz := ih (rb.put cap x) hb' hw' (by omega) (cap - 1) (by omega)
      have he : ((rb.put cap x).wr + (cap - 1)) % cap = (rb.wr + 0) % cap := by
        simp only [put, Nat.mod_add_mod]
        rw [show rb.wr + 1 + (cap - 1) = rb.wr + 0 + cap by omega, Nat.add_mod_right]
      rw [he] at hz
      rw [hz, hput, if_neg (by omega), Nat.add_zero, Nat.mod_eq_of_lt hw]
      simp
    | succ j =>
      have hz := ih (rb.put cap x) hb' hw' (by omega) j (by omega)
      have he : ((rb.put cap x).wr + j) % cap = (rb.wr + (j + 1)) % cap := by
        simp only [put, Nat.mod_add_mod]
        congr 1
        omega
      rw [he] at hz
      rw [hz, hput]
      have hne : (rb.wr + (j + 1)) % cap ≠ rb.wr := by
        intro h
        rcases Nat.lt_or_ge (rb.wr + (j + 1)) cap with h1 | h1
        · rw [Nat.mod_eq_of_lt h1] at h
          omega
        · rw [Nat.mod_eq_sub_mod h1, Nat.mod_eq_of_lt (by omega)] at h
          omega
      simp [hne]

/-- A write puts the samples that fit behind those buffered. -/
theorem contents_write {cfg : Cfg} (h : rb.Inv cfg) (l : List Rat) :
    (rb.write cfg.rbCap l).contents cfg.rbCap = rb.contents cfg.rbCap ++ l.take (rb.room cfg.rbCap l) := by
  obtain ⟨hb, hw, hr, ho, he, hc⟩ := h
  have hlen : (l.take (rb.room cfg.rbCap l)).length = rb.room cfg.rbCap l := by simp [room]
  have hroom : rb.room cfg.rbCap l ≤ cfg.rbCap - rb.occ := Nat.min_le_right _ _
  set k := rb.room cfg.rbCap l with hk
  set kept := l.take k with hkept
  have hrd := (putAll_frame (cap := cfg.rbCap) kept rb).2.1
  simp only [contents, write, ← hk, ← hkept, hrd, List.range_add, List.map_append, List.map_map]
  congr 1
  · refine List.map_congr_left fun i hi => ?_
    have hi := List.mem_range.mp hi
    have hj : (rb.rd + i) % cfg.rbCap = (rb.wr + (cfg.rbCap - rb.occ + i)) % cfg.rbCap := by
      rw [he, Nat.mod_add_mod, show rb.rd + rb.occ + (cfg.rbCap - rb.occ + i) = rb.rd + i + cfg.rbCap by omega,
        Nat.add_mod_right]
    rw [hj, putAll_getD kept rb hb hw (by omega) _ (by omega), if_neg (by omega)]
  · apply List.ext_getElem
    · simp [hlen]
    · intro i h1 h2
      simp only [List.length_map, List.length_range] at h1
      have hj : (rb.rd + (rb.occ + i)) % cfg.rbCap = (rb.wr + i) % cfg.rbCap := by
        rw [he, Nat.mod_add_mod, Nat.add_assoc]
      simp only [List.getElem_map, List.getElem_range, Function.comp_apply]
      rw [hj, putAll_getD kept rb hb hw (by omega) _ (by omega), if_pos (by omega)]
      simp [List.getD_eq_getElem?_getD, List.getElem?_eq_getElem h2]

/-- The samples a read takes are the first of those buffered, and the rest stay. -/
theorem takeMany_contents (k : Nat) (hk : k ≤ rb.occ) (hr : rb.rd < cap) :
    (takeMany cap k rb).1 = (rb.contents cap).take k := by
  rw [takeMany_fst k rb hr, contents, ← List.map_take, List.take_range, Nat.min_eq_left hk]

theorem contents_advance (k : Nat) :
    contents { rb with rd := (rb.rd + k) % cap, occ := rb.occ - k } cap = (rb.contents cap).drop k := by
  apply List.ext_getElem
  · simp [contents]
  · intro i h1 h2
    simp [contents, Nat.add_assoc]

/-- The ring buffer's invariant is kept by a write, by a read and its report. -/
theorem Inv_write {cfg : Cfg} (h : rb.Inv cfg) (l : List Rat) : (rb.write cfg.rbCap l).Inv cfg := by
  obtain ⟨hb, hw, hr, ho, he, hc⟩ := h
  have hlen : (l.take (rb.room cfg.rbCap l)).length = rb.room cfg.rbCap l := by
    simp [room]
  have hroom : rb.room cfg.rbCap l ≤ cfg.rbCap - rb.occ := Nat.min_le_right _ _
  obtain ⟨f1, f2, f3, f4⟩ := putAll_frame (cap := cfg.rbCap) (l.take (rb.room cfg.rbCap l)) rb
  have hwr := putAll_wr (l.take (rb.room cfg.rbCap l)) rb hw
  rw [hlen] at hwr
  simp only [write]
  refine ⟨f1.trans hb, by rw [hwr]; exact Nat.mod_lt _ (by omega), by rw [f2]; exact hr, by dsimp only; omega, ?_,
    by rw [f4]; exact hc⟩
  dsimp only
  rw [hwr, f2, he, Nat.mod_add_mod, Nat.add_assoc]

theorem Inv_read {cfg : Cfg} (h : rb.Inv cfg) (count : Nat) : (rb.read cfg.rbCap count).2.2.Inv cfg := by
  obtain ⟨hb, hw, hr, ho, he, hc⟩ := h
  have hk : min count rb.occ ≤ rb.occ := Nat.min_le_right _ _
  simp only [read, (takeMany_frame (min count rb.occ) rb hr).2]
  refine ⟨hb, hw, Nat.mod_lt _ (by omega), by dsimp only; omega, ?_, hc⟩
  dsimp only
  rw [he, Nat.mod_add_mod]
  congr 1
  omega

theorem Inv_report {cfg : Cfg} (h : rb.Inv cfg) : (rb.report cfg).2.Inv cfg := by
  obtain ⟨hb, hw, hr, ho, he, hc⟩ := h
  unfold report
  split
  · exact ⟨hb, hw, hr, ho, he, Nat.zero_lt_of_lt hc⟩
  · exact ⟨hb, hw, hr, ho, he, by dsimp only; omega⟩

theorem Inv_reset {cfg : Cfg} (h : cfg.Valid) : (RingBuffer.reset cfg).Inv cfg := by
  obtain ⟨-, -, -, h1, h2⟩ := h
  exact ⟨by simp [reset], h1, h1, Nat.zero_le _, by simp [reset], h2⟩

end RingBuffer
end Sys2Proof.Machine
end

