-- ==== Sys2Proof/Laws/PerInstr.lean ====
section
/-! SUPPORT. Per instruction: the encoder's word and payload are a well-formed stimulus. -/
namespace Sys2Proof.Laws.EncodesWellFormed

/-- The fields and the payload of the encoding are well formed. -/
def Statement (i : Instr) : Prop := (fieldsOf (encode i).word).wellFormed (encode i).payload = true

theorem busWrite {addr : BusAddr} (v : Byte)
    (h : (decide (0x4000 ≤ addr.toNat) && decide (addr.toNat ≤ 0x4017)) = true) :
    (fieldsOf (busWriteStimulus addr v).word).wellFormed (busWriteStimulus addr v).payload = true := by
  rw [busWriteStimulus, fieldsOf_pack]
  simpa [Fields.wellFormed, Fields.portAssigned, Fields.addrInWindow, Fields.portFieldsZero, Fields.dataZero,
    Fields.payloadFits] using h

theorem port {p : BitVec 4} {d : Byte} {pl : Payload}
    (h : (Fields.wellFormed ⟨p, 0, 0, d⟩ pl) = true) :
    (fieldsOf (portStimulus p d pl).word).wellFormed (portStimulus p d pl).payload = true := by
  rw [portStimulus, fieldsOf_pack]
  exact h

theorem w4000 (v : Byte) : Statement (.w4000 v) := busWrite v (by decide)
theorem w4001 (v : Byte) : Statement (.w4001 v) := busWrite v (by decide)
theorem w4002 (v : Byte) : Statement (.w4002 v) := busWrite v (by decide)
theorem w4003 (v : Byte) : Statement (.w4003 v) := busWrite v (by decide)
theorem w4004 (v : Byte) : Statement (.w4004 v) := busWrite v (by decide)
theorem w4005 (v : Byte) : Statement (.w4005 v) := busWrite v (by decide)
theorem w4006 (v : Byte) : Statement (.w4006 v) := busWrite v (by decide)
theorem w4007 (v : Byte) : Statement (.w4007 v) := busWrite v (by decide)
theorem w4008 (v : Byte) : Statement (.w4008 v) := busWrite v (by decide)
theorem w4009 (v : Byte) : Statement (.w4009 v) := busWrite v (by decide)
theorem w400A (v : Byte) : Statement (.w400A v) := busWrite v (by decide)
theorem w400B (v : Byte) : Statement (.w400B v) := busWrite v (by decide)
theorem w400C (v : Byte) : Statement (.w400C v) := busWrite v (by decide)
theorem w400D (v : Byte) : Statement (.w400D v) := busWrite v (by decide)
theorem w400E (v : Byte) : Statement (.w400E v) := busWrite v (by decide)
theorem w400F (v : Byte) : Statement (.w400F v) := busWrite v (by decide)
theorem w4010 (v : Byte) : Statement (.w4010 v) := busWrite v (by decide)
theorem w4011 (v : Byte) : Statement (.w4011 v) := busWrite v (by decide)
theorem w4012 (v : Byte) : Statement (.w4012 v) := busWrite v (by decide)
theorem w4013 (v : Byte) : Statement (.w4013 v) := busWrite v (by decide)
theorem w4014 (v : Byte) : Statement (.w4014 v) := busWrite v (by decide)
theorem w4015 (v : Byte) : Statement (.w4015 v) := busWrite v (by decide)
theorem w4016 (v : Byte) : Statement (.w4016 v) := busWrite v (by decide)
theorem w4017 (v : Byte) : Statement (.w4017 v) := busWrite v (by decide)
theorem rd4000 : Statement .rd4000 := rfl
theorem rd4001 : Statement .rd4001 := rfl
theorem rd4002 : Statement .rd4002 := rfl
theorem rd4003 : Statement .rd4003 := rfl
theorem rd4004 : Statement .rd4004 := rfl
theorem rd4005 : Statement .rd4005 := rfl
theorem rd4006 : Statement .rd4006 := rfl
theorem rd4007 : Statement .rd4007 := rfl
theorem rd4008 : Statement .rd4008 := rfl
theorem rd4009 : Statement .rd4009 := rfl
theorem rd400A : Statement .rd400A := rfl
theorem rd400B : Statement .rd400B := rfl
theorem rd400C : Statement .rd400C := rfl
theorem rd400D : Statement .rd400D := rfl
theorem rd400E : Statement .rd400E := rfl
theorem rd400F : Statement .rd400F := rfl
theorem rd4010 : Statement .rd4010 := rfl
theorem rd4011 : Statement .rd4011 := rfl
theorem rd4012 : Statement .rd4012 := rfl
theorem rd4013 : Statement .rd4013 := rfl
theorem rd4014 : Statement .rd4014 := rfl
theorem rd4015 : Statement .rd4015 := rfl
theorem rd4016 : Statement .rd4016 := rfl
theorem rd4017 : Statement .rd4017 := rfl
theorem clock : Statement .clock := port rfl
theorem reset : Statement .reset := port rfl
theorem dmaReq : Statement .dmaReq := port rfl
theorem dmaLoad (b : Byte) : Statement (.dmaLoad b) := port rfl
theorem sample : Statement .sample := port rfl
theorem irq : Statement .irq := port rfl
theorem setRate (r : Rat) : Statement (.setRate r) := port rfl
theorem rsPull : Statement .rsPull := port rfl
theorem rbWrite (samples : List Rat) : Statement (.rbWrite samples) := port rfl
theorem rbRead (count : Int) : Statement (.rbRead count) := port rfl

end Sys2Proof.Laws.EncodesWellFormed
end

