-- ==== Sys2Proof/Tests/Slice0.lean ====
section
/-! SUPPORT. Tests: the well-formedness checks, decoding, one or two steps per stimulus with results from the spec's vectors,
and for every statement with hypotheses a state and operands that meet them. -/
namespace Sys2Proof.Tests
open Sys2Proof Sys2Proof.Machine Sys2Proof.Claims

/-! The states and the reading of a result. -/

/-- The defaults with `BASE_STEP = 20`, `RS_OUT_CAP = 8`, `RB_CAP = 4`, `REPORT_EVERY = 2`. -/
def cfg : Cfg := Config.standard (20 * 44100) .hz44100 8 4 2

/-- The state after reset in that configuration. -/
def s0 : State := State.resetOf cfg

/-- What `f` reads from the state that `i` leaves. -/
def after {α : Type} (i : Instr) (s : State) (f : State → α) : Option α :=
  match exec i s with
  | .next t => some (f t)
  | _ => none

/-! Well-formedness: for each check a term it refuses, and one it accepts (R111, R136, R140). -/

theorem test_wf_unassigned_port : Fields.wellFormed ⟨11, 0, 0, 0⟩ .none = false := by decide
theorem test_wf_address_below : Fields.wellFormed ⟨0, 1, 0x3FFF, 0⟩ .none = false := by decide
theorem test_wf_address_above : Fields.wellFormed ⟨0, 0, 0x4018, 0⟩ .none = false := by decide
theorem test_wf_port_with_rw : Fields.wellFormed ⟨1, 1, 0, 0⟩ .none = false := by decide
theorem test_wf_port_with_address : Fields.wellFormed ⟨2, 0, 0x4000, 0⟩ .none = false := by decide
theorem test_wf_read_with_data : Fields.wellFormed ⟨0, 0, 0x4015, 1⟩ .none = false := by decide
theorem test_wf_port_with_data : Fields.wellFormed ⟨3, 0, 0, 1⟩ .none = false := by decide
theorem test_wf_payload_missing : Fields.wellFormed ⟨7, 0, 0, 0⟩ .none = false := by decide
theorem test_wf_payload_of_other_port : Fields.wellFormed ⟨9, 0, 0, 0⟩ (.count 1) = false := by decide
theorem test_wf_accepts : Fields.wellFormed ⟨0, 1, 0x4017, 0xFF⟩ .none = true ∧
    Fields.wellFormed ⟨4, 0, 0, 0xFF⟩ .none = true ∧ Fields.wellFormed ⟨10, 0, 0, 0⟩ (.count (-1)) = true := by decide

/-! Decoding: each constructor from a word written out from the spec's encoding of it (R111, R138). -/

/-- Field by field: port, `rw`, address, data (R111). -/
theorem test_decode_bit_by_bit :
    decode ⟨0b0000_1_0100000000000000_10111111, .none⟩ = .ok (.w4000 0b10111111) ∧
    decode ⟨0b0000_1_0100000000001011_00001000, .none⟩ = .ok (.w400B 0b00001000) ∧
    decode ⟨0b0000_1_0100000000001110_10001111, .none⟩ = .ok (.w400E 0b10001111) ∧
    decode ⟨0b0000_1_0100000000010011_00000100, .none⟩ = .ok (.w4013 0b00000100) ∧
    decode ⟨0b0000_1_0100000000010111_01000000, .none⟩ = .ok (.w4017 0b01000000) ∧
    decode ⟨0b0000_0_0100000000010101_00000000, .none⟩ = .ok .rd4015 ∧
    decode ⟨0b0100_0_0000000000000000_00001111, .none⟩ = .ok (.dmaLoad 0b00001111) ∧
    decode ⟨0b1010_0_0000000000000000_00000000, .count 2⟩ = .ok (.rbRead 2) :=
  ⟨rfl, rfl, rfl, rfl, rfl, rfl, rfl, rfl⟩

/-- R138: `W $40xx $dd` is the word `0x1000000 + 0x40xx00 + 0xdd`. -/
theorem test_decode_pulse_writes :
    decode ⟨0x14000BF, .none⟩ = .ok (.w4000 0xBF) ∧
    decode ⟨0x1400189, .none⟩ = .ok (.w4001 0x89) ∧
    decode ⟨0x14002AB, .none⟩ = .ok (.w4002 0xAB) ∧
    decode ⟨0x1400308, .none⟩ = .ok (.w4003 0x08) ∧
    decode ⟨0x14004BF, .none⟩ = .ok (.w4004 0xBF) ∧
    decode ⟨0x1400589, .none⟩ = .ok (.w4005 0x89) ∧
    decode ⟨0x1400664, .none⟩ = .ok (.w4006 0x64) ∧
    decode ⟨0x1400708, .none⟩ = .ok (.w4007 0x08) :=
  ⟨rfl, rfl, rfl, rfl, rfl, rfl, rfl, rfl⟩

/-- R138: `W $40xx $dd` is the word `0x1000000 + 0x40xx00 + 0xdd`. -/
theorem test_decode_triangle_writes :
    decode ⟨0x1400805, .none⟩ = .ok (.w4008 0x05) ∧
    decode ⟨0x1400977, .none⟩ = .ok (.w4009 0x77) ∧
    decode ⟨0x1400A02, .none⟩ = .ok (.w400A 0x02) ∧
    decode ⟨0x1400B08, .none⟩ = .ok (.w400B 0x08) :=
  ⟨rfl, rfl, rfl, rfl⟩

/-- R138: `W $40xx $dd` is the word `0x1000000 + 0x40xx00 + 0xdd`. -/
theorem test_decode_noise_writes :
    decode ⟨0x1400C3F, .none⟩ = .ok (.w400C 0x3F) ∧
    decode ⟨0x1400D66, .none⟩ = .ok (.w400D 0x66) ∧
    decode ⟨0x1400E8F, .none⟩ = .ok (.w400E 0x8F) ∧
    decode ⟨0x1400F08, .none⟩ = .ok (.w400F 0x08) :=
  ⟨rfl, rfl, rfl, rfl⟩

/-- R138: `W $40xx $dd` is the word `0x1000000 + 0x40xx00 + 0xdd`. -/
theorem test_decode_dmc_writes :
    decode ⟨0x140108F, .none⟩ = .ok (.w4010 0x8F) ∧
    decode ⟨0x1401140, .none⟩ = .ok (.w4011 0x40) ∧
    decode ⟨0x14012FF, .none⟩ = .ok (.w4012 0xFF) ∧
    decode ⟨0x1401304, .none⟩ = .ok (.w4013 0x04) :=
  ⟨rfl, rfl, rfl, rfl⟩

/-- R138: `W $40xx $dd` is the word `0x1000000 + 0x40xx00 + 0xdd`. -/
theorem test_decode_status_and_frame_writes :
    decode ⟨0x1401455, .none⟩ = .ok (.w4014 0x55) ∧
    decode ⟨0x140150F, .none⟩ = .ok (.w4015 0x0F) ∧
    decode ⟨0x1401644, .none⟩ = .ok (.w4016 0x44) ∧
    decode ⟨0x1401780, .none⟩ = .ok (.w4017 0x80) :=
  ⟨rfl, rfl, rfl, rfl⟩

/-- R138: `R $40xx` is the word `0x40xx00`. -/
theorem test_decode_pulse_reads :
    decode ⟨0x0400000, .none⟩ = .ok .rd4000 ∧
    decode ⟨0x0400100, .none⟩ = .ok .rd4001 ∧
    decode ⟨0x0400200, .none⟩ = .ok .rd4002 ∧
    decode ⟨0x0400300, .none⟩ = .ok .rd4003 ∧
    decode ⟨0x0400400, .none⟩ = .ok .rd4004 ∧
    decode ⟨0x0400500, .none⟩ = .ok .rd4005 ∧
    decode ⟨0x0400600, .none⟩ = .ok .rd4006 ∧
    decode ⟨0x0400700, .none⟩ = .ok .rd4007 :=
  ⟨rfl, rfl, rfl, rfl, rfl, rfl, rfl, rfl⟩

/-- R138: `R $40xx` is the word `0x40xx00`. -/
theorem test_decode_triangle_and_noise_reads :
    decode ⟨0x0400800, .none⟩ = .ok .rd4008 ∧
    decode ⟨0x0400900, .none⟩ = .ok .rd4009 ∧
    decode ⟨0x0400A00, .none⟩ = .ok .rd400A ∧
    decode ⟨0x0400B00, .none⟩ = .ok .rd400B ∧
    decode ⟨0x0400C00, .none⟩ = .ok .rd400C ∧
    decode ⟨0x0400D00, .none⟩ = .ok .rd400D ∧
    decode ⟨0x0400E00, .none⟩ = .ok .rd400E ∧
    decode ⟨0x0400F00, .none⟩ = .ok .rd400F :=
  ⟨rfl, rfl, rfl, rfl, rfl, rfl, rfl, rfl⟩

/-- R138: `R $40xx` is the word `0x40xx00`. -/
theorem test_decode_dmc_status_and_frame_reads :
    decode ⟨0x0401000, .none⟩ = .ok .rd4010 ∧
    decode ⟨0x0401100, .none⟩ = .ok .rd4011 ∧
    decode ⟨0x0401200, .none⟩ = .ok .rd4012 ∧
    decode ⟨0x0401300, .none⟩ = .ok .rd4013 ∧
    decode ⟨0x0401400, .none⟩ = .ok .rd4014 ∧
    decode ⟨0x0401500, .none⟩ = .ok .rd4015 ∧
    decode ⟨0x0401600, .none⟩ = .ok .rd4016 ∧
    decode ⟨0x0401700, .none⟩ = .ok .rd4017 :=
  ⟨rfl, rfl, rfl, rfl, rfl, rfl, rfl, rfl⟩


/-- R138: the port stimuli. -/
theorem test_decode_ports :
    decode ⟨0x2000000, .none⟩ = .ok .clock ∧ decode ⟨0x4000000, .none⟩ = .ok .reset ∧
    decode ⟨0x6000000, .none⟩ = .ok .dmaReq ∧ decode ⟨0x800000F, .none⟩ = .ok (.dmaLoad 0x0F) ∧
    decode ⟨0xA000000, .none⟩ = .ok .sample ∧ decode ⟨0xC000000, .none⟩ = .ok .irq ∧
    decode ⟨0xE000000, .ratio 2⟩ = .ok (.setRate 2) ∧ decode ⟨0x10000000, .none⟩ = .ok .rsPull ∧
    decode ⟨0x12000000, .samples [1, 2]⟩ = .ok (.rbWrite [1, 2]) ∧
    decode ⟨0x14000000, .count 3⟩ = .ok (.rbRead 3) :=
  ⟨rfl, rfl, rfl, rfl, rfl, rfl, rfl, rfl, rfl, rfl⟩

/-- R83, R136: what decodes to nothing, by name. -/
theorem test_decode_refuses :
    decode ⟨0x1401800, .none⟩ = .error (.addressOutsideWindow 0x4018) ∧
    decode ⟨0x03FFF00, .none⟩ = .error (.addressOutsideWindow 0x3FFF) ∧
    decode ⟨0x16000000, .none⟩ = .error (.unassignedPort 11) ∧
    decode ⟨0x1E000000, .none⟩ = .error (.unassignedPort 15) ∧
    decode ⟨0x0401501, .none⟩ = .error .unusedFieldNotZero ∧
    decode ⟨0x2000001, .none⟩ = .error .unusedFieldNotZero ∧
    decode ⟨0xE000000, .none⟩ = .error .payloadMismatch ∧
    decode ⟨0x2000000, .count 0⟩ = .error .payloadMismatch :=
  ⟨rfl, rfl, rfl, rfl, rfl, rfl, rfl, rfl⟩

/-- R138's words, spelled by the encoder. -/
theorem test_encode_words : (encode (.w4015 0x0F)).word = 0x140150F ∧ (encode .rd4002).word = 0x0400200 ∧
    (encode (.dmaLoad 0x0F)).word = 0x800000F ∧ (encode (.rbRead 4)).word = 0x14000000 := by decide

/-- A row's bits as the table numbers them. -/
theorem test_table_word : decodeTableWord 32 0x140150F = some (.w4015 0x0F) ∧
    decodeTableWord 32 0x14000000 = some (.rbRead 0) ∧ decodeTableWord 32 0x20000000 = none := by decide

/-- The placed instruction is the next one to run (P1's first write). -/
theorem test_withFetchWord : (match step (s0.withFetchWord 32 0x1401501) with
    | .next t => t.p1.enabled && t.queue.isEmpty
    | _ => false) = true := by decide

/-! Steps: one or two for each stimulus. -/

/-- P1: `$BF` on offset 0 is duty 2, halt and loop, constant volume 15; the byte goes to its own shadow byte (R20). -/
theorem test_w4000 : after (.w4000 0xBF) s0 (fun t => (t.p1.duty, t.p1.halt, t.p1.env.loop, t.p1.env.constVol)) =
    some (2, true, true, true) := by decide
theorem test_w4000_shadow : after (.w4000 0xBF) s0 (fun t => (t.p1.env.vol, t.shadow.read 0x4000, t.busLatch)) =
    some (15, 0xBF, 0xBF) := by decide

/-- T5's register write: enable, period 0, negate, shift 1, reload armed (R191). -/
theorem test_w4001 : after (.w4001 0x89) s0 (fun t => t.p1.sweep) = some ⟨true, 0, true, 1, 0, true⟩ := by decide

/-- V-P8, first half. -/
theorem test_w4002 : after (.w4002 0x20) (s0.withP1 { Pulse.reset with period := 0x1FF }) (fun t => t.p1.period) =
    some 0x120 := by decide

/-- V-P1. -/
theorem test_w4003 : after (.w4003 0x08) (s0.withP1 { Pulse.reset with enabled := true, pos := 5, period := 0x700 })
    (fun t => (t.p1.length, t.p1.period, t.p1.pos, t.p1.env.start)) = some (254, 0, 0, true) := by decide
/-- V-P2: a disabled channel loads no length. -/
theorem test_w4003_disabled : after (.w4003 0x0B) (s0.withP1 { Pulse.reset with period := 0x20 })
    (fun t => (t.p1.length, t.p1.period, t.p1.env.start)) = some (0, 0x320, true) := by decide

/-- The second channel takes offsets 4 to 7, and the first does not move (R112). -/
theorem test_w4004 : after (.w4004 0xBF) s0 (fun t => (t.p2.duty, t.p2.env.vol, t.p1 == Pulse.reset)) =
    some (2, 15, true) := by decide
/-- `$F1`: enable, period 7, shift 1, additive. -/
theorem test_w4005 : after (.w4005 0xF1) s0 (fun t => t.p2.sweep) = some ⟨true, 7, false, 1, 0, true⟩ := by decide
/-- P6: period 100. -/
theorem test_w4006 : after (.w4006 0x64) s0 (fun t => (t.p2.period, t.p1.period)) = some (100, 0) := by decide
/-- V-P8, second half. -/
theorem test_w4007 : after (.w4007 0x03) (s0.withP2 { Pulse.reset with period := 0x120 }) (fun t => t.p2.period) =
    some 0x320 := by decide

/-- P4: control clear, reload value 5; `$85` sets the control flag (R242). -/
theorem test_w4008 : after (.w4008 0x05) s0 (fun t => (t.tri.control, t.tri.linReloadVal)) = some (false, 5) := by decide
theorem test_w4008_control : after (.w4008 0x85) s0 (fun t => (t.tri.control, t.tri.linReloadVal)) =
    some (true, 5) := by decide
/-- V-X6. -/
theorem test_w4009 : after (.w4009 0x77) s0 (fun t => (t.shadow, t.tri == Triangle.reset)) =
    some ([(0x4009, 0x77)], true) := by decide
/-- P4: period 2. -/
theorem test_w400A : after (.w400A 0x02) (s0.withTri { Triangle.reset with period := 0x7FF }) (fun t => t.tri.period) =
    some 0x702 := by decide
/-- P4: length 254, the reload flag set, the position kept (R244). -/
theorem test_w400B : after (.w400B 0x08) (s0.withTri { Triangle.reset with enabled := true, pos := 9 })
    (fun t => (t.tri.length, t.tri.linReload, t.tri.pos)) = some (254, true, 9) := by decide

/-- V-X8: bits 7:6 are ignored. -/
theorem test_w400C : after (.w400C 0xFF) s0 (fun t => (t.noi.halt, t.noi.env.loop, t.noi.env.constVol, t.noi.env.vol)) =
    some (true, true, true, 15) := by decide
/-- V-X6. -/
theorem test_w400D : after (.w400D 0x66) s0 (fun t => (t.shadow, t.noi == Noise.reset)) =
    some ([(0x400D, 0x66)], true) := by decide
/-- V-N4. -/
theorem test_w400E : after (.w400E 0x8F) s0 (fun t => (t.noi.mode, t.noi.periodIdx)) = some (true, 15) := by decide
/-- P5: length 254; a disabled channel still arms its envelope (R264). -/
theorem test_w400F : after (.w400F 0x08) (s0.withNoi { Noise.reset with enabled := true })
    (fun t => (t.noi.length, t.noi.env.start)) = some (254, true) := by decide
theorem test_w400F_disabled : after (.w400F 0x08) s0 (fun t => (t.noi.length, t.noi.env.start)) =
    some (0, true) := by decide

/-- V-D8. -/
theorem test_w4010 : after (.w4010 0x0F) (s0.withDmc { Dmc.reset with irqEnable := true, irq := true })
    (fun t => (t.dmc.irq, t.dmc.irqEnable, t.dmc.rateIdx)) = some (false, false, 15) := by decide
/-- P3: `$8F` leaves a set flag set. -/
theorem test_w4010_keeps : after (.w4010 0x8F) (s0.withDmc { Dmc.reset with irq := true })
    (fun t => (t.dmc.irq, t.dmc.irqEnable, t.dmc.loop)) = some (true, true, false) := by decide
/-- V-D2. -/
theorem test_w4011 : after (.w4011 0xFF) s0 (fun t => t.dmc.out) = some 127 := by decide
theorem test_w4011_low : after (.w4011 0x80) (s0.withDmc { Dmc.reset with out := 127 }) (fun t => t.dmc.out) =
    some 0 := by decide
/-- R284, R285: the registers only; a sample in progress keeps its counters. -/
theorem test_w4012 : after (.w4012 0xFF) s0 (fun t => (t.dmc.addrByte, t.dmc.curAddr)) = some (0xFF, 0x8000) := by decide
theorem test_w4013 : after (.w4013 0x04) s0 (fun t => (t.dmc.lenByte, t.dmc.bytes)) = some (4, 0) := by decide
/-- V-X6. -/
theorem test_w4014 : after (.w4014 0x55) s0 (fun t => t.shadow) = some [(0x4014, 0x55)] := by decide
theorem test_w4016 : after (.w4016 0x44) s0 (fun t => t.shadow) = some [(0x4016, 0x44)] := by decide

/-- V-X3: `$05` forces the lengths of pulse 2 and noise to 0. -/
theorem test_w4015 : after (.w4015 0x05)
    ((((s0.withP1 { Pulse.reset with enabled := true, length := 254 }).withP2
      { Pulse.reset with enabled := true, length := 254 }).withTri
      { Triangle.reset with enabled := true, length := 254 }).withNoi { Noise.reset with enabled := true, length := 254 })
    (fun t => (t.p1.length, t.p2.length, t.tri.length, t.noi.length)) = some (254, 0, 254, 0) := by decide
/-- T15, V-D5: a start from `$4012 = $FF`, `$4013 = $04` (R286), and the interrupt cleared (R371). -/
theorem test_w4015_start : after (.w4015 0x10) (s0.withDmc { Dmc.reset with addrByte := 0xFF, lenByte := 4, irq := true })
    (fun t => (t.dmc.curAddr, t.dmc.bytes, t.dmc.active, t.dmc.irq)) = some (0xFFC0, 65, true, false) := by decide

/-- V-F4, V-F5: the delay by the parity of the issue cycle; nothing else moves yet. -/
theorem test_w4017_even : after (.w4017 0x80) (s0.withCyc 10) (fun t => (t.fs.pend, t.fs.mode)) =
    some (some ⟨0x80, 10, 4⟩, .fourStep) := by decide
theorem test_w4017_odd : after (.w4017 0xC0) (s0.withCyc 11) (fun t => (t.fs.pend, t.fs.inhibit)) =
    some (some ⟨0xC0, 11, 3⟩, false) := by decide

/-- Every offset's shadow byte, offset `k` holding `0x40 + k`. -/
def shadowed : State := s0.withShadow ((List.range 24).map fun k => (0x4000 + k, BitVec.ofNat 8 (0x40 + k)))

/-- R88, R376: each read returns its own offset's byte. -/
theorem test_open_bus_pulse :
    ([.rd4000, .rd4001, .rd4002, .rd4003, .rd4004, .rd4005, .rd4006, .rd4007].map fun i =>
      after i shadowed (fun t => t.response)) =
    [0x40, 0x41, 0x42, 0x43, 0x44, 0x45, 0x46, 0x47].map (fun b => some (.byte b)) := by decide
theorem test_open_bus_triangle_noise :
    ([.rd4008, .rd4009, .rd400A, .rd400B, .rd400C, .rd400D, .rd400E, .rd400F].map fun i =>
      after i shadowed (fun t => t.response)) =
    [0x48, 0x49, 0x4A, 0x4B, 0x4C, 0x4D, 0x4E, 0x4F].map (fun b => some (.byte b)) := by decide
theorem test_open_bus_rest :
    ([.rd4010, .rd4011, .rd4012, .rd4013, .rd4014, .rd4016, .rd4017].map fun i =>
      after i shadowed (fun t => t.response)) =
    [0x50, 0x51, 0x52, 0x53, 0x54, 0x56, 0x57].map (fun b => some (.byte b)) := by decide
/-- R88, D20: in the other mode every such read returns the latch. -/
theorem test_open_bus_latch : after .rd4002
    { s0 with cfg := { cfg with openBusMode := .singleLatch }, busLatch := 0x99 } (fun t => t.response) =
    some (.byte 0x99) := by decide

/-- V-F8: the frame interrupt reads as `$40` and is cleared. -/
theorem test_rd4015 : after .rd4015 (s0.withFs { FrameSeq.reset with irq := true }) (fun t => (t.response, t.fs.irq)) =
    some (.byte 0x40, false) := by decide
/-- P3, V-X2: the DMC's interrupt reads as `$80` and stays; four lengths read as `$0F`. -/
theorem test_rd4015_dmc : after .rd4015
    (((((s0.withDmc { Dmc.reset with irq := true }).withP1 { Pulse.reset with length := 1 }).withP2
      { Pulse.reset with length := 254 }).withTri { Triangle.reset with length := 2 }).withNoi
      { Noise.reset with length := 254 })
    (fun t => (t.response, t.dmc.irq)) = some (.byte 0x8F, true) := by decide

/-- V-D7, P3: the request is pending at once after a start; none without a sample. -/
theorem test_dmaReq : after .dmaReq (s0.withDmc { Dmc.reset with active := true, bytes := 1, curAddr := 0xC000 })
    (fun t => t.response) = some (.request (some 0xC000)) := by decide
theorem test_dmaReq_none : after .dmaReq s0 (fun t => t.response) = some (.request none) := by decide

/-- P3: the one byte of a sample ends it and raises the interrupt. -/
theorem test_dmaLoad : after (.dmaLoad 0x0F)
    (s0.withDmc { Dmc.reset with irqEnable := true, active := true, bytes := 1, curAddr := 0xC000 })
    (fun t => (t.dmc.shift, t.dmc.bits, t.dmc.curAddr, t.dmc.active, t.dmc.irq)) =
    some (0x0F, 8, 0xC001, false, true) := by decide
/-- V-D7. -/
theorem test_dmaLoad_none : (match exec (.dmaLoad 0) s0 with
    | .fault .cvDmaLoadNoRequest => true
    | _ => false) = true := by decide

/-- V-X7. -/
theorem test_sample : after .sample s0 (fun t => t.response) = some (.sample none) := by decide
/-- P3. -/
theorem test_irq : after .irq (s0.withDmc { Dmc.reset with irq := true }) (fun t => t.response) =
    some (.interrupts false true true) := by decide

/-- V-R5. -/
theorem test_setRate : after (.setRate (-3)) s0 (fun t => t.rs.step) = some (199 / 10) := by decide +kernel
theorem test_setRate_high : after (.setRate 2) s0 (fun t => t.rs.step) = some (201 / 10) := by decide +kernel

/-- R336. -/
theorem test_rsPull : after .rsPull (s0.withRs { Resampler.reset cfg with out := [1, -1] })
    (fun t => (t.response, t.rs.out)) = some (.batch [1, -1], []) := by decide +kernel

/-- V-B1's shape at a capacity of 4: two of three samples fit, across the wrap. -/
theorem test_rbWrite : after (.rbWrite [5, 6, 7]) (s0.withRb { RingBuffer.reset cfg with wr := 3, rd := 1, occ := 2 })
    (fun t => (t.response, t.rb.buf, t.rb.wr, t.rb.occ)) = some (.accepted 2, [6, 0, 0, 5], 1, 4) := by decide +kernel
/-- V-B7. -/
theorem test_rbWrite_full : after (.rbWrite [5]) (s0.withRb { RingBuffer.reset cfg with wr := 2, rd := 2, occ := 4 })
    (fun t => (t.response, t.rb.buf, t.rb.occ)) = some (.accepted 0, [0, 0, 0, 0], 4) := by decide +kernel

/-- V-B5, second call: one real sample, three zeros, and the report. -/
theorem test_rbRead : after (.rbRead 4) (s0.withRb ⟨[-1, -1, -1, 0], 3, 2, 1, 1⟩) (fun t => (t.response, t.rb.rd)) =
    some (.rendered [-1, 0, 0, 0] 1 (some 0), 3) := by decide +kernel
/-- V-B6. -/
theorem test_rbRead_negative : (match exec (.rbRead (-1)) s0 with
    | .fault .cvNegativeCount => true
    | _ => false) = true := by decide

/-- P1, `c = 0`: the timer reloads to 8, the position moves to 1, the sample is `−16879/24070`. -/
theorem test_clock_pulse : after .clock
    (s0.withP1 { Pulse.reset with enabled := true, duty := 2, length := 254, period := 8, env := ⟨0, 0, true, true, true, 15⟩, sweep := ⟨false, 0, true, 0, 0, true⟩ })
    (fun t => (t.p1.timer, t.p1.pos, t.sample, t.cyc)) = some (8, 1, some (-16879 / 24070), 1) := by decide +kernel
/-- V-F7's step 4 and V-F8: the interrupt rises at `c = 29829`. -/
theorem test_clock_irq : after .clock (s0.withCyc 29829) (fun t => (t.fs.irq, t.cyc)) = some (true, 29830) := by decide

/-- R386: the latch and the shadow bytes too (V-X4). -/
theorem test_reset : after .reset ((s0.latchWrite 2 0xAB).withCyc 7) (fun t => (t.shadow, t.busLatch, t.cyc)) =
    some ([], 0, 0) := by decide

/-! The units, from the spec's vectors. -/

/-- V-S1: shifts 1 to 7 on both channels. -/
theorem test_sweep_polarity : ([1, 2, 3, 4, 5, 6, 7].map fun k =>
      (((Sweep.reset.setRegister (0x88 + k)).clock cfg (Config.sweepExtra .one) 100).1,
       ((Sweep.reset.setRegister (0x88 + k)).clock cfg (Config.sweepExtra .two) 100).1)) =
    [(some 50, some 49), (some 75, some 74), (some 88, some 87), (some 94, some 93), (some 97, some 96),
     (some 99, some 98), (some 100, some 99)] := by decide
/-- V-S3, V-S4, V-S5. -/
theorem test_sweep_muting : (Sweep.reset.setRegister 0x01).isMuting cfg 0x555 = false ∧
    (Sweep.reset.setRegister 0x01).isMuting cfg 0x556 = true ∧ (Sweep.reset.setRegister 0x00).isMuting cfg 0x3FF = false ∧
    (Sweep.reset.setRegister 0x00).isMuting cfg 0x400 = true ∧ (Sweep.reset.setRegister 0x08).isMuting cfg 0x7FF = false ∧
    (Sweep.reset.setRegister 0x08).isMuting cfg 7 = true := by decide
/-- V-S8: the reload flag reloads a divider that is not at 0. -/
theorem test_sweep_reload : (((Sweep.reset.setRegister 0xF1).clock cfg 0 100).2.setRegister 0xF1).clock cfg 0 150 =
    (none, ⟨true, 7, false, 1, 7, false⟩) := by decide

/-- V-E1's first five clocks. -/
theorem test_envelope : ([1, 2, 3, 4, 5].map fun k =>
      let e := Env.clock^[k] ((Env.reset.setRegister 0x02).setStartFlag)
      (e.decay, e.div)) = [(15, 2), (15, 1), (15, 0), (14, 2), (14, 1)] := by decide

/-- V-N1 and V-N2: shifts from 1 in each mode, at the first difference. -/
theorem test_noise_long : ((fun n => { n with lfsr := n.shifted } : Noise → Noise)^[15] Noise.reset).lfsr = 0x4001 := by
  decide +kernel
theorem test_noise_short :
    ((fun n => { n with lfsr := n.shifted } : Noise → Noise)^[10] { Noise.reset with mode := true }).lfsr = 0x4020 := by
  decide +kernel

/-- V-D3, V-D4: the level saturates. -/
theorem test_delta : deltaLevel true 126 = 127 ∧ deltaLevel true 127 = 127 ∧ deltaLevel false 3 = 1 ∧
    deltaLevel false 1 = 0 := by decide
/-- V-D5, T16: the address after `0xFFFF`. -/
theorem test_address_wrap : nextSampleAddr cfg 0xFFFF = 0x8000 ∧ nextSampleAddr cfg 0xFFFE = 0xFFFF := by decide

/-- V-P7: the duty patterns, by position. -/
theorem test_duty : ([0, 1, 2, 3].map fun d => [0, 1, 2, 3, 4, 5, 6, 7].map fun k => Operand.dutyBit cfg d k) =
    [[false, true, false, false, false, false, false, false], [false, true, true, false, false, false, false, false],
     [false, true, true, true, true, false, false, false], [true, false, false, true, true, true, true, true]] := by
  decide
/-- T17, R217: ends of the tables, and length index 3. -/
theorem test_tables : Operand.noiseReload cfg 0 = 4 ∧ Operand.noiseReload cfg 15 = 4068 ∧ Operand.dmcReload cfg 0 = 428 ∧
    Operand.dmcReload cfg 15 = 54 ∧ Operand.lengthOf cfg 1 = 254 ∧ Operand.lengthOf cfg 3 = 2 := by decide
/-- V-T4. -/
theorem test_triangle_output : ({ Triangle.reset with enabled := true, length := 1, linear := 1, period := 1 }).output cfg = 0 ∧
    ({ Triangle.reset with enabled := true, length := 1, linear := 1, period := 2, pos := 20 }).output cfg = 4 := by decide

/-- V-M1. -/
theorem test_mix : mix cfg 1 0 0 0 0 = -5909 / 6050 ∧ mix cfg 0 0 1 0 0 = -400371 / 416350 ∧
    mix cfg 0 0 0 1 0 = -601071 / 617050 ∧ mix cfg 0 0 0 0 1 = -1120921 / 1136900 := by decide +kernel

/-- V-R4: the fourth push at `BASE_STEP = 8/3`. -/
theorem test_push : (let r := Resampler.pushAll 8 [-1, 1, 1, -1] { Resampler.reset cfg with step := 8 / 3 }
    (r.out, r.pos)) = ([5 / 4], 4 / 3) := by decide +kernel

/-- V-R7, the fifth push at `BASE_STEP = 1/2`: two passes, `t` = 0 then 1, with outputs 2 and 3. -/
theorem test_push_order : (Resampler.pushAll 8 [0, 1, 2, 3] { Resampler.reset cfg with step := 1 / 2 }).out =
      [-5, -4, -3, -2, -1, 0, 1, 2] ∧
    ((Resampler.pushAll 8 [0, 1, 2, 3] { Resampler.reset cfg with step := 1 / 2 }).clearOut.push 8 4).out = [2, 3] := by
  decide +kernel

/-! Witnesses: for every statement with hypotheses, a state and operands that meet them together. -/

/-- A state that meets the invariant of the block, with a stimulus to come, a pending write and a request. -/
def busy : State :=
  { s0 with
    queue := [encode .clock]
    cyc := 2
    fs := { FrameSeq.reset with pend := some ⟨0x80, 0, 4⟩ }
    dmc := { Dmc.reset with active := true, bytes := 1, curAddr := 0xFFFF }
    shadow := [(0x4000, 0xBF), (0x4017, 0x80)] }

/-- The configuration of the tests and that of the machine hold D0's literals: every statement with `Source`. -/
theorem witness_source : cfg.Source ∧ State.reset.cfg.Source := ⟨rfl, rfl⟩
theorem witness_valid : cfg.Valid := by decide +kernel
theorem witness_baseStep : 0 < cfg.baseStep := by decide +kernel
theorem witness_inv : busy.Inv := by decide +kernel
theorem witness_reset_inv : s0.Inv := by decide +kernel

/-- StepKeepsTheInvariant, ConfigurationNeverChanges, StepRunsTheDecodedStimulus, EncodeReadsBackDecode. -/
theorem witness_step : busy.queue = [encode .clock] ∧ decode (encode .clock) = .ok .clock ∧
    step busy = .next ((busy.withQueue []).clock.withResponse .nothing) := ⟨rfl, rfl, rfl⟩

/-- StepRefusesTheUndecodedAndIdles. -/
theorem witness_undecoded : (s0.withFetchWord 32 0x1401800).queue = [⟨0x1401800, .none⟩] ∧
    decode ⟨0x1401800, .none⟩ = .error (.addressOutsideWindow 0x4018) ∧ s0.queue = [] := ⟨rfl, rfl, rfl⟩

/-- BusAndClockAlwaysRun, ContextsShareOnlyTheRingBuffer: each agent and context has stimuli. -/
theorem witness_agents : (Instr.w4000 0).agent = .bus ∧ Instr.rd4017.agent = .bus ∧ Instr.clock.agent = .clk ∧
    (Instr.rbRead 1).agent.context = .render ∧ (Instr.rbWrite [1]).agent.context = .emulation := by decide

/-- FaultsExactlyOnABrokenContract: each way for no request to be pending, and a negative count. -/
theorem witness_no_request : s0.dmc.active = false ∧ (Dmc.mk false false 0 0 0 0 0 0x8000 1 0 8 false true).bits ≠ 0 ∧
    s0.dmc.bytes = 0 ∧ (-1 : Int) < 0 := by decide

/-- OnlyClockAdvancesTimeAndSample, InterruptFlagsMoveInTheListedStimuliOnly: the frame flag rises in a CLOCK. -/
theorem witness_frame_irq : (s0.withCyc 29829).fs.irq = false ∧
    after .clock (s0.withCyc 29829) (fun t => t.fs.irq) = some true := by decide
/-- The DMC's flag rises in a DMA_LOAD. -/
theorem witness_dmc_irq : (busy.withDmc { busy.dmc with irqEnable := true }).dmc.irq = false ∧
    after (.dmaLoad 0) (busy.withDmc { busy.dmc with irqEnable := true }) (fun t => t.dmc.irq) = some true := by decide
/-- The frame flag falls in a status read, in RESET, and in the CLOCK where a write with bit 6 set takes effect. -/
theorem witness_frame_irq_falls :
    after .rd4015 (s0.withFs { FrameSeq.reset with irq := true }) (fun t => t.fs.irq) = some false ∧
    after .reset (s0.withFs { FrameSeq.reset with irq := true }) (fun t => t.fs.irq) = some false ∧
    after .clock ((s0.withFs { FrameSeq.reset with irq := true, pend := some ⟨0x40, 0, 4⟩ }).withCyc 4)
      (fun t => t.fs.irq) = some false := by decide
/-- The DMC's flag falls in both writes and in RESET. -/
theorem witness_dmc_irq_falls : ([.w4015 0xFF, .w4010 0x7F, .reset].map fun i =>
      after i (s0.withDmc { Dmc.reset with irq := true }) (fun t => t.dmc.irq)) =
    [some false, some false, some false] ∧ bitSet 0x7F 7 = false := by decide
/-- OnlyClockAdvancesTimeAndSample, RESET and another stimulus. -/
theorem witness_exec_other : (after .reset busy (fun t => t.cyc)).isSome = true ∧
    (after .irq busy (fun t => t.cyc)).isSome = true := by decide

/-- The write statements: a canonical shadow memory, empty or not; the bounds of a byte. -/
theorem witness_shadow : s0.shadow.wf = true ∧ busy.shadow.wf = true ∧ bitSet 0xFF 7 = true ∧ bitSet 0x00 0 = false ∧
    bitField 0xFF 7 3 = 31 ∧ bitField 0x00 7 3 = 0 := by decide
/-- LengthLoaded: an enabled channel, at the ends of the table, and a disabled one. -/
theorem witness_length : cfg.lengthTable.toList[bitField 0x00 7 3]? = some 10 ∧
    cfg.lengthTable.toList[bitField 0xF8 7 3]? = some 30 ∧ s0.p1.enabled = false := by decide
/-- StatusWriteSwitchesTheChannels, DmcStartLoadsTheSampleOrDoesNothing: started, playing on, stopped. -/
theorem witness_switch : bitSet 0x10 4 = true ∧ s0.dmc.bytes.toNat = 0 ∧ busy.dmc.bytes ≠ 0 ∧
    bitSet 0x0F 4 = false := by decide
/-- OpenBusReadGivesTheLastWrite, OpenBusReadsChangeNothing: members of the lists, the first and the last. -/
theorem witness_open_bus : (Instr.w4000 0xBF, Instr.rd4000) ∈ openBusPairs 0xBF ∧
    (Instr.w4017 0xBF, Instr.rd4017) ∈ openBusPairs 0xBF ∧ (Instr.rd4000, 0x00) ∈ openBusReads ∧
    (Instr.rd4017, 0x17) ∈ openBusReads := by decide

/-- ScheduleFiresAtTheListedSteps, ClockMixesAndPushesOneSample: no write pending, one not yet due, in either mode. -/
theorem witness_schedule : ¬ WriteDue s0.fs 4 ∧ ¬ WriteDue busy.fs 3 ∧ s0.fs.mode = .fourStep ∧
    ({ FrameSeq.reset with mode := .fiveStep }).mode = .fiveStep := by
  refine ⟨?_, ?_, rfl, rfl⟩ <;> simp [WriteDue, s0, busy, State.resetOf, FrameSeq.reset]
/-- ClockMixesAndPushesOneSample: a pending write that is due. -/
theorem witness_due : (⟨0x80, 0, 4⟩ : Pending) ∈ busy.fs.pend ∧ (busy.withCyc 4).cyc = 0 + 4 := ⟨rfl, rfl⟩
/-- FrameWriteInvisibleBeforeItsEffect, FrameWriteTakesEffectAfterItsDelay: an odd and an even issue cycle, the delay's ends. -/
theorem witness_frame_write : (s0.withCyc 11).fs.pend = none ∧ (s0.withCyc 11).cyc % 2 = 1 ∧
    (after (.w4017 0xC0) (s0.withCyc 11) (fun t => t.cyc)).isSome = true ∧
    (after (.w4017 0x80) (s0.withCyc 10) (fun t => t.cyc)).isSome = true ∧ (s0.withCyc 10).cyc % 2 ≠ 1 := by decide

/-- ClockDispatchesTheFrameEvents, LinearCounterReloadsOrCountsDown: a CLOCK with both pulses, with one, with none. -/
theorem witness_events : eventsOf (s0.withCyc 14913) = ⟨true, true, false⟩ ∧
    eventsOf (s0.withCyc 7459) = ⟨true, false, false⟩ ∧ eventsOf s0 = ⟨false, false, false⟩ := by decide
/-- ClockTicksTheTimers: a CLOCK that ticks the APU cycle and one that does not, with timers at 0 and above. -/
theorem witness_timers : Ticks s0 s0.cfg.apuDomain.pulse ∧ Ticks (s0.withCyc 1) false ∧ s0.tri.timer = 0 ∧ s0.noi.timer = 0 ∧
    ¬ Ticks (s0.withCyc 1) s0.cfg.apuDomain.noise ∧ ({ Triangle.reset with timer := 1 }).timer ≠ 0 ∧
    (s0.pulse .two).timer = 0 ∧ ({ Noise.reset with timer := 1 }).timer ≠ 0 ∧
    ((s0.withP1 { Pulse.reset with timer := 1 }).pulse .one).timer ≠ 0 := by decide

/-- EnvelopeClockRestartsCountsAndDecays, EnvelopeDecaysOneLevelPerPeriod: a start armed, a divider running, one at 0. -/
theorem witness_envelope : (Env.reset.setStartFlag).start = true ∧ (Env.reset.setStartFlag).loop = false ∧
    ((Env.reset.setRegister 0x20).setStartFlag).start = true ∧ ((Env.reset.setRegister 0x20).setStartFlag).loop = true ∧
    Env.reset.start = false ∧ Env.reset.div.toNat = 0 ∧ ({ Env.reset with div := 1 }).div.toNat ≠ 0 := by decide

/-- SweepReturnsTheExactTarget: additive up to `0x7FF`, and negated from the least period. -/
theorem witness_sweep : ((Sweep.reset.setRegister 0x81).clock cfg 0 0x555).1 = some 0x7FF ∧
    ((Sweep.reset.setRegister 0x89).clock cfg 1 8).1 = some 3 ∧ (Sweep.reset.setRegister 0x81).negate = false ∧
    (Sweep.reset.setRegister 0x89).negate = true := by decide
/-- SweepClockServicesItsDivider: each case of the divider and the reload flag. -/
theorem witness_sweep_divider : Sweep.reset.div.toNat = 0 ∧ (Sweep.reset.setRegister 0x00).reload = true ∧
    ({ Sweep.reset with div := 7 }).div.toNat ≠ 0 ∧ ({ Sweep.reset with div := 7 }).reload = false := by decide
/-- SweepPolarityDivergesByOne: the least period, shifts 1 and 7. -/
theorem witness_polarity : Sweep.reset.div = 0 ∧ bitSet 0x89 7 = true ∧ bitSet 0x89 3 = true ∧ bitField 0x89 2 0 ≠ 0 ∧
    bitField 0x8F 2 0 = 7 ∧ 8 ≤ (8 : BitVec 11).toNat := by decide

/-- LinearCounterReloadsOrCountsDown: the reload flag set and clear. -/
theorem witness_linear : ({ Triangle.reset with linReload := true }).linReload = true ∧ Triangle.reset.linReload = false := by
  decide
/-- WaveformsRepeat: timers at both ends of their range, counters that are not 0. -/
theorem witness_waveforms : Pulse.reset.timer.toNat ≤ Pulse.reset.period.toNat ∧
    ({ Pulse.reset with period := 0x7FF, timer := 0x7FF }).timer.toNat ≤
      ({ Pulse.reset with period := 0x7FF, timer := 0x7FF }).period.toNat ∧
    ({ Triangle.reset with linear := 1, length := 1 }).linear ≠ 0 ∧
    ({ Triangle.reset with linear := 1, length := 1 }).length ≠ 0 ∧ Triangle.reset.timer.toNat ≤ Triangle.reset.period.toNat := by
  decide

/-- Channels at the boundary of sounding (ChannelsAreSilentWhenMuted). -/
def soundingPulse : Pulse := { Pulse.reset with enabled := true, length := 1, period := 8 }
def soundingTriangle : Triangle := { Triangle.reset with enabled := true, length := 1, linear := 1, period := 2 }
def soundingNoise : Noise := { Noise.reset with enabled := true, length := 1, lfsr := 2 }

theorem witness_sounding_pulse : soundingPulse.enabled = true ∧ soundingPulse.length.toNat ≠ 0 ∧
    8 ≤ soundingPulse.period.toNat ∧
    soundingPulse.period.toNat + soundingPulse.period.toNat / 2 ^ soundingPulse.sweep.shift.toNat ≤ 0x7FF := by decide
theorem witness_sounding_others : soundingTriangle.enabled = true ∧ soundingTriangle.length.toNat ≠ 0 ∧
    soundingTriangle.linear.toNat ≠ 0 ∧ 2 ≤ soundingTriangle.period.toNat ∧ soundingNoise.enabled = true ∧
    soundingNoise.length.toNat ≠ 0 ∧ soundingNoise.lfsr.toNat % 2 = 0 := by decide
theorem witness_silent : Pulse.reset.enabled = false ∧ Pulse.reset.length.toNat = 0 ∧ Pulse.reset.period.toNat < 8 ∧
    ({ soundingPulse with period := 0x400 }).sweep.negate = false ∧
    0x7FF < ({ soundingPulse with period := 0x400 }).period.toNat +
      ({ soundingPulse with period := 0x400 }).period.toNat / 2 ^ ({ soundingPulse with period := 0x400 }).sweep.shift.toNat ∧
    Triangle.reset.enabled = false ∧ Triangle.reset.length.toNat = 0 ∧ Triangle.reset.linear.toNat = 0 ∧
    Triangle.reset.period.toNat < 2 ∧ Noise.reset.enabled = false ∧ Noise.reset.length.toNat = 0 ∧
    Noise.reset.lfsr.toNat % 2 = 1 := by decide

/-- NoiseShiftFeedsBackAndNeverZeroes. -/
theorem witness_noise : Noise.reset.lfsr ≠ 0 := by decide
/-- DmcClockMovesTheLevelWithinItsRange: a timer running, one at 0, with and without a bit. -/
theorem witness_dmc_clock : Dmc.reset.timer.toNat = 0 ∧ Dmc.reset.bits.toNat = 0 ∧
    ({ Dmc.reset with bits := 8 }).bits.toNat ≠ 0 ∧ ({ Dmc.reset with timer := 1 }).timer.toNat ≠ 0 := by decide
/-- DmaLoadDeliversTheByte: a request with the last byte, looping or not, at the last address, and one with more to come. -/
theorem witness_dma_load : busy.dmc.active = true ∧ busy.dmc.bits.toNat = 0 ∧ busy.dmc.bytes.toNat = 1 ∧
    busy.dmc.loop = false ∧ ({ busy.dmc with loop := true }).loop = true ∧ busy.dmc.curAddr.toNat = 0xFFFF ∧
    ({ busy.dmc with bytes := 2 }).bytes.toNat ≠ 1 ∧ ({ busy.dmc with bytes := 2 }).bytes.toNat ≠ 0 := by decide

/-- SetRateClampsTheRatio: below, at both ends of the range, above. -/
theorem witness_ratio : (0 : Rat) < 995 / 1000 ∧ (995 / 1000 : Rat) ≤ 995 / 1000 ∧ (1005 / 1000 : Rat) ≤ 1005 / 1000 ∧
    (1005 / 1000 : Rat) < 2 := by decide +kernel
/-- PushRunsThePassesOfItsPosition: the first and the third push, whose counts are at the ends of the warm-up. -/
theorem witness_warm_up : (Resampler.reset cfg).n < 3 ∧
    (Resampler.pushAll 8 [-1, -1] (Resampler.reset cfg)).n = 2 := by decide +kernel
/-- PushRunsThePassesOfItsPosition: the fourth push, at the least and the greatest room. -/
theorem witness_push : (let r := Resampler.pushAll 8 [-1, -1, -1] (Resampler.reset cfg)
    3 ≤ r.n ∧ r.n ≤ 4 ∧ 0 ≤ r.pos ∧ 0 < r.step ∧ r.out.length ≤ 0) := by decide +kernel
/-- PushesGiveTheRatioOfOutputs: the longest list without an output, and the shortest that the count is stated for. -/
theorem witness_lengths : ([0, 0, 0] : List Rat).length < 4 ∧ 4 ≤ ([0, 0, 0, 0] : List Rat).length := by decide

/-- RingWriteKeepsWhatFits, RingReadDeliversThenFills: an empty and a full ring buffer. -/
theorem witness_ring : (RingBuffer.reset cfg).Inv cfg ∧ (RingBuffer.mk [1, 2, 3, 4] 2 2 4 1).Inv cfg := by decide +kernel
/-- RingBufferIsAQueue: a run of one write and one read. -/
theorem witness_ring_run : RingRun s0 [.write [], .read 0] [] []
    ((s0.withRb { s0.rb with calls := 1 }).withResponse (.rendered [] 0 none)) :=
  .write (samples := []) (k := 0) (u := s0.withResponse (.accepted 0)) rfl rfl
    (.read (count := 0) (k := 0) (out := []) (rep := none) rfl rfl (.done _))

/-- FirstSampleAfterResetIsMinusOne. -/
theorem witness_first : (after .reset busy (fun t => after .clock t (fun u => after .rd4015 u (fun v => v.response)))) =
    some (some (some (.byte 0))) := by decide

end Sys2Proof.Tests
end

section
/-! PROOFS of the statements about the step and the configuration as a whole (00_scope.md): first what a step can do, then what
a bus transaction does in every case, then the three obligations. -/
namespace Sys2Proof.Machine

/-! What a step can do. -/

section
variable {s t : State} {st : Stimulus} {rest : List Stimulus} {i : Instr}

theorem step_idle (hq : s.queue = []) : step s = .next s := by simp [step, fetch_nil hq]

theorem step_decoded (hq : s.queue = st :: rest) (hd : decode st = .ok i) : step s = exec i (s.withQueue rest) := by
  simp [step, fetch_cons hq, hd]

theorem step_undecoded {e : DecodeError} (hq : s.queue = st :: rest) (hd : decode st = .error e) :
    step s = .refused (.invalidStimulus e) := by
  simp [step, fetch_cons hq, hd]

/-- A step that gives a next state has idled, or has run the stimulus that the head of the queue decodes to. -/
theorem step_next_cases (h : step s = .next t) :
    (s.queue = [] ∧ t = s) ∨
      ∃ st rest i, s.queue = st :: rest ∧ decode st = .ok i ∧ exec i (s.withQueue rest) = .next t := by
  cases hq : s.queue with
  | nil => exact .inl ⟨rfl, by simpa [step_idle hq] using h.symm⟩
  | cons st rest =>
    cases hd : decode st with
    | ok i => exact .inr ⟨st, rest, i, rfl, hd, step_decoded hq hd ▸ h⟩
    | error e => simp [step_undecoded hq hd] at h

end

/-! What the stimuli do, by the agent that issues them. -/

theorem SamePath.refl (s : State) : SamePath s s := ⟨rfl, rfl, rfl, rfl, rfl, rfl⟩

/-- CLOCK is the one stimulus of the clock agent (R5). -/
theorem agent_eq_clk_iff {i : Instr} : i.agent = .clk ↔ i = .clock := by
  cases i <;> simp [Instr.agent]

/-- A bus transaction always runs (R17): a write from the state with its byte latched and its unit loaded, an open-bus read
from the state as it is, the status read from the state with the frame flag cleared. -/
theorem bus_transaction_answers {i : Instr} (h : i.agent = .bus) (s : State) :
    ∃ u r, exec i s = answer u r ∧ SamePath s u := by
  cases i
  case w4000 | w4001 | w4002 | w4003 | w4004 | w4005 | w4006 | w4007 | w4008 | w4009 | w400A | w400B | w400C | w400D |
      w400E | w400F | w4010 | w4011 | w4012 | w4013 | w4014 | w4015 | w4016 | w4017 =>
    exact ⟨_, .nothing, rfl, rfl, rfl, rfl, rfl, rfl, rfl⟩
  case rd4000 | rd4001 | rd4002 | rd4003 | rd4004 | rd4005 | rd4006 | rd4007 | rd4008 | rd4009 | rd400A | rd400B |
      rd400C | rd400D | rd400E | rd400F | rd4010 | rd4011 | rd4012 | rd4013 | rd4014 | rd4016 | rd4017 =>
    exact ⟨s, _, rfl, .refl s⟩
  case rd4015 => exact ⟨s.withFs s.fs.clearIrqFlag, _, rfl, rfl, rfl, rfl, rfl, rfl, rfl⟩
  all_goals cases h

theorem bus_transaction_keeps_cfg {i : Instr} {s t : State} (hb : i.agent = .bus) (h : exec i s = .next t) :
    t.cfg = s.cfg := by
  obtain ⟨u, r, hu, hcfg, -⟩ := bus_transaction_answers hb s
  obtain rfl := answer_next_iff.mp (hu ▸ h)
  exact hcfg

/-- No stimulus writes the configuration: RESET reads it, and keeps it (R6, R386). -/
theorem exec_keeps_cfg {i : Instr} {s t : State} (h : exec i s = .next t) : t.cfg = s.cfg := by
  cases i
  case clock =>
    obtain rfl := answer_next_iff.mp h
    exact clock_cfg s
  case dmaLoad b =>
    obtain ⟨-, rfl⟩ := execDmaLoad_next_iff.mp h
    rfl
  case rbRead count =>
    obtain ⟨-, hr⟩ := execRbRead_next_iff.mp h
    obtain rfl := answer_next_iff.mp hr
    rfl
  case reset | dmaReq | sample | irq | setRate | rsPull | rbWrite =>
    obtain rfl := answer_next_iff.mp h
    rfl
  all_goals exact bus_transaction_keeps_cfg rfl h

theorem step_keeps_cfg {s t : State} (h : step s = .next t) : t.cfg = s.cfg := by
  obtain ⟨-, rfl⟩ | ⟨st, rest, i, -, -, hx⟩ := step_next_cases h
  · rfl
  · simpa using exec_keeps_cfg hx

end Sys2Proof.Machine

namespace Sys2Proof.Claims
open Sys2Proof.Machine

/-! The configuration at reset (R7). -/

/-- The spec's defaults have the listed values for any positive values of the OPEN parameters. -/
theorem standard_hasTheListedValues {fIn : Rat} {fOut : OutRate} {rsOutCap rbCap reportEvery : Nat}
    (hin : 0 < fIn) (hout : 0 < rsOutCap) (hrb : 0 < rbCap) (hrep : 0 < reportEvery) :
    HasTheListedValues (Config.standard fIn fOut rsOutCap rbCap reportEvery) :=
  ⟨⟨rfl, rfl, rfl, rfl, rfl, rfl, rfl⟩, rfl,  -- the frame sequencer, the triangle's sequence
    ⟨rfl, rfl, rfl, rfl, rfl, rfl, rfl, rfl⟩, ⟨rfl, rfl, rfl, rfl, rfl, rfl⟩,  -- the mixer, the DMC's address and length
    ⟨rfl, rfl, rfl, rfl, rfl⟩, ⟨rfl, rfl, rfl, rfl⟩,  -- the limits, the scalar decisions
    rfl, rfl, rfl, rfl,  -- the duty, length, noise and DMC tables
    hin, hout, hrb, hrep⟩

/-- The input rate of the machine at hand is a quotient of successors. -/
theorem machine_fIn_pos : 0 < Config.machine.fIn :=
  div_pos (Nat.cast_pos.mpr (Nat.succ_pos _)) (Nat.cast_pos.mpr (Nat.succ_pos _))

theorem machine_hasTheListedValues : HasTheListedValues Config.machine :=
  standard_hasTheListedValues machine_fIn_pos (Nat.succ_pos _) (Nat.succ_pos _) (Nat.succ_pos _)

/-! The obligations. -/

/-- Settles O9: no stimulus writes the configuration, and the state after reset is configured by the machine at hand. -/
theorem configurationNeverChanges : Obligations.ConfigurationNeverChanges :=
  ⟨fun _ _ => step_keeps_cfg, machine_hasTheListedValues⟩

/-- Settles O10, by the agent: every bus transaction answers, and the clock agent's one stimulus does. -/
theorem busAndClockAlwaysRun : Obligations.BusAndClockAlwaysRun := by
  rintro i s (hbus | hclk)
  · obtain ⟨u, r, hu, -⟩ := bus_transaction_answers hbus s
    exact ⟨u.withResponse r, hu⟩
  · obtain rfl := agent_eq_clk_iff.mp hclk
    exact ⟨s.clock.withResponse .nothing, rfl⟩

/-- Settles O5: the head of the queue is what the step fetches. -/
theorem stepRunsTheDecodedStimulus : Obligations.StepRunsTheDecodedStimulus :=
  fun _ _ _ _ => step_decoded

end Sys2Proof.Claims
end

section
/-! PROOFS of the statements about the state as a whole (10_state.md): first the lemmas the invariant needs beyond Laws/ (the
range of the mix, the noise shift, the DMC's enable, the reset values), then that every stimulus keeps the invariant, then what
each stimulus does to the two interrupt flags, then the three obligations. -/
namespace Sys2Proof

theorem OutRate.hz_pos (r : OutRate) : 0 < r.hz := by
  cases r <;> norm_num [OutRate.hz]

theorem Cfg.Valid.baseStep_pos {cfg : Cfg} (h : cfg.Valid) : 0 < cfg.baseStep := div_pos h.2.1 (OutRate.hz_pos _)

/-- The OPEN parameters of the machine at hand are positive (log 4). -/
theorem Config.machine_valid : Config.machine.Valid :=
  ⟨rfl, Claims.machine_fIn_pos, Nat.succ_pos _, Nat.succ_pos _, Nat.succ_pos _⟩

end Sys2Proof

namespace Sys2Proof.Machine

/-! The mixer's stages as fractions, and the range of the mix (R321 to R324). -/

section
variable {cfg : Cfg}

/-- `a x / (b + c x)`, the shape of both mixer stages, rises with `x`. -/
theorem stageFraction_mono {a b c x y : Rat} (ha : 0 ≤ a) (hb : 0 < b) (hc : 0 ≤ c) (hx : 0 ≤ x) (hxy : x ≤ y) :
    a * x / (b + c * x) ≤ a * y / (b + c * y) := by
  have hy : 0 ≤ y := hx.trans hxy
  rw [div_le_div_iff₀ (by positivity) (by positivity)]
  have : 0 ≤ a * b * (y - x) := mul_nonneg (mul_nonneg ha hb.le) (sub_nonneg.mpr hxy)
  linarith

theorem pulseTable_eq_fraction (h : cfg.Source) (n : Nat) :
    pulseTable cfg n = 9588 / 100 * n / (8128 + 100 * n) := by
  rw [pulseTable, h.pulseNum, h.pulseDenK, h.pulseDenC]
  split
  · next h0 => simp [h0]
  · next h0 =>
    have : (n : Rat) ≠ 0 := Nat.cast_ne_zero.mpr h0
    field_simp

theorem tndSum_eq (h : cfg.Source) (tri noise : BitVec 4) (dmc : BitVec 7) :
    tndSum cfg tri noise dmc = tri.toNat / 8227 + noise.toNat / 12241 + dmc.toNat / 22638 := by
  rw [tndSum, h.tndTri, h.tndNoise, h.tndDmc]

theorem tndSum_nonneg (h : cfg.Source) (tri noise : BitVec 4) (dmc : BitVec 7) : 0 ≤ tndSum cfg tri noise dmc := by
  rw [tndSum_eq h]
  positivity

theorem tndOut_eq_fraction (h : cfg.Source) (tri noise : BitVec 4) (dmc : BitVec 7) :
    tndOut cfg tri noise dmc = 15979 / 100 * tndSum cfg tri noise dmc / (1 + 100 * tndSum cfg tri noise dmc) := by
  rw [tndOut, h.tndNum, h.tndDenC]
  split
  · next h0 => simp [h0]
  · next h0 => field_simp

theorem pulseTable_nonneg (h : cfg.Source) (n : Nat) : 0 ≤ pulseTable cfg n := by
  rw [pulseTable_eq_fraction h]
  positivity

theorem tndOut_nonneg (h : cfg.Source) (tri noise : BitVec 4) (dmc : BitVec 7) : 0 ≤ tndOut cfg tri noise dmc := by
  have := tndSum_nonneg h tri noise dmc
  rw [tndOut_eq_fraction h]
  positivity

/-- A level of `w` bits, as a rational, is at most the greatest one. -/
theorem level_le {w : Nat} (x : BitVec w) : (x.toNat : Rat) ≤ ((2 ^ w - 1 : Nat) : Rat) :=
  Nat.cast_le.mpr (Nat.le_sub_one_of_lt x.isLt)

/-- The pulse stage is greatest at the two full levels. -/
theorem pulseTable_le_full (h : cfg.Source) (p1 p2 : BitVec 4) : pulseTable cfg (p1.toNat + p2.toNat) ≤ 7191 / 27820 := by
  have h1 := level_le p1
  have h2 := level_le p2
  calc pulseTable cfg (p1.toNat + p2.toNat)
      = 9588 / 100 * ((p1.toNat + p2.toNat : Nat) : Rat) / (8128 + 100 * ((p1.toNat + p2.toNat : Nat) : Rat)) :=
        pulseTable_eq_fraction h _
    _ ≤ 9588 / 100 * 30 / (8128 + 100 * 30) :=
        stageFraction_mono (by norm_num) (by norm_num) (by norm_num) (by positivity) (by push_cast at *; linarith)
    _ = 7191 / 27820 := by norm_num

/-- The second stage stays below what the pulse stage leaves of 1. -/
theorem tndOut_lt (h : cfg.Source) (tri noise : BitVec 4) (dmc : BitVec 7) :
    tndOut cfg tri noise dmc < 1 - 7191 / 27820 := by
  have h1 := level_le tri
  have h2 := level_le noise
  have h3 := level_le dmc
  have hmax : tndSum cfg tri noise dmc ≤ 15 / 8227 + 15 / 12241 + 127 / 22638 := by
    rw [tndSum_eq h]
    push_cast at h1 h2 h3
    linarith
  calc tndOut cfg tri noise dmc
      = 15979 / 100 * tndSum cfg tri noise dmc / (1 + 100 * tndSum cfg tri noise dmc) := tndOut_eq_fraction h _ _ _
    _ ≤ 15979 / 100 * (15 / 8227 + 15 / 12241 + 127 / 22638) / (1 + 100 * (15 / 8227 + 15 / 12241 + 127 / 22638)) :=
        stageFraction_mono (by norm_num) (by norm_num) (by norm_num) (tndSum_nonneg h _ _ _) hmax
    _ < 1 - 7191 / 27820 := by norm_num

/-- The mixed sample lies in `[-1, 1)` (R324). -/
theorem mix_bounds (h : cfg.Source) (p1 p2 tri noise : BitVec 4) (dmc : BitVec 7) :
    -1 ≤ mix cfg p1 p2 tri noise dmc ∧ mix cfg p1 p2 tri noise dmc < 1 := by
  have hp0 := pulseTable_nonneg h (p1.toNat + p2.toNat)
  have hp1 := pulseTable_le_full h p1 p2
  have ht0 := tndOut_nonneg h tri noise dmc
  have ht1 := tndOut_lt h tri noise dmc
  rw [mix]
  constructor <;> linarith

theorem mixed_bounds {s : State} (h : s.cfg.Source) : -1 ≤ s.mixed ∧ s.mixed < 1 := mix_bounds h ..

end

/-! The noise register never becomes 0 (R39 (a)). -/

namespace Noise
variable {n : Noise}

/-- A shift to 0 would need every bit above bit 0 clear, and then bit 0, fed back alone, clear too. -/
theorem shifted_ne_zero (h : n.Inv) : n.shifted ≠ 0 := by
  intro h0
  have hbit : ∀ i, n.shifted.getLsbD i = false := fun i => by simp [h0]
  have hhigh : ∀ i < 14, n.lfsr.getLsbD (i + 1) = false := fun i hi => by
    simpa [shifted_getLsbD, hi] using hbit i
  have hlow : n.lfsr.getLsbD 0 = false := by
    have h14 := hbit 14
    rw [shifted_getLsbD, feedback, hhigh 0 (by decide), hhigh 5 (by decide)] at h14
    simpa using h14
  refine h (BitVec.eq_of_getLsbD_eq fun i hi => ?_)
  cases i with
  | zero => simpa using hlow
  | succ i => simpa using hhigh i (by omega)

theorem Inv_clockTimer {cfg : Cfg} (h : n.Inv) : (n.clockTimer cfg).Inv := by
  by_cases h0 : n.timer = 0
  · rw [clockTimer_zero h0]
    exact shifted_ne_zero h
  · rw [clockTimer_count h0]
    exact h

end Noise

/-! The DMC's enable bit keeps its invariant (R373). -/

theorem Dmc.Inv_setEnabled {cfg : Cfg} {d : Dmc} (hc : cfg.Source) (h : d.Inv) (e : Bool) : (d.setEnabled cfg e).Inv := by
  cases e with
  | true => exact Dmc.Inv_start hc h
  | false => exact Dmc.Inv_stop h

/-! The reset values meet the invariant. -/

theorem State.Inv_resetOf {cfg : Cfg} (h : cfg.Valid) : (State.resetOf cfg).Inv := by
  have hfs : FrameSeq.reset.Inv cfg 0 := ⟨le_refl 0, by simp [FrameSeq.reset]⟩
  have hnoi : Noise.reset.Inv := by decide
  have hdmc : Dmc.reset.Inv := by decide
  exact ⟨h, Memory.wf_nil, by rintro y ⟨⟩, hfs, hnoi, hdmc, Resampler.Inv_reset h.baseStep_pos,
    RingBuffer.Inv_reset h⟩

/-! Every stimulus keeps the invariant. -/

section
variable {s t : State} {i : Instr}

/-- The frame events move the envelopes and the counters, never the noise register (R380, R381). -/
theorem clockFrame_lfsr (s : State) : s.clockFrame.noi.lfsr = s.noi.lfsr := by
  rw [clockFrame_noi, frameEvents_noi]
  split <;> split <;> rfl

theorem State.Inv.clock (h : s.Inv) : s.clock.Inv := by
  obtain ⟨hcfg, hshadow, -, hfs, hnoi, hdmc, hrs, hrb⟩ := h
  have hmix : -1 ≤ s.clock.mixed ∧ s.clock.mixed < 1 := mixed_bounds ((clock_cfg s).symm ▸ hcfg.1)
  have hnoi' : s.clockFrame.noi.Inv := by rwa [Noise.Inv, clockFrame_lfsr]
  refine ⟨?_, ?_, ?_, ?_, ?_, ?_, ?_, ?_⟩
  · rwa [clock_cfg]
  · rwa [clock_shadow]
  · rw [clock_sample]
    rintro _ ⟨⟩
    exact hmix
  · rw [clock_fs, clock_cfg, clock_cyc]
    exact FrameSeq.Inv_clock hfs
  · rw [clock_noi]
    split
    · exact Noise.Inv_clockTimer hnoi'
    · exact hnoi'
  · rw [clock_dmc]
    split
    · exact Dmc.Inv_clock hdmc
    · exact hdmc
  · rw [clock_rs, clock_cfg]
    exact Resampler.Inv_push hcfg.baseStep_pos hrs _
  · rwa [clock_rb, clock_cfg]

@[simp] theorem setEnables_shadow (s : State) (v : Byte) : (s.setEnables v).shadow = s.shadow := by simp [State.setEnables]
@[simp] theorem setEnables_fs (s : State) (v : Byte) : (s.setEnables v).fs = s.fs := by simp [State.setEnables]
@[simp] theorem setEnables_noi (s : State) (v : Byte) : (s.setEnables v).noi = s.noi.setEnabled (Operand.enableNoi v) := by
  simp [State.setEnables]
@[simp] theorem setEnables_dmc (s : State) (v : Byte) :
    (s.setEnables v).dmc = s.dmc.clearIrq.setEnabled s.cfg (Operand.enableDmc v) := by simp [State.setEnables]

theorem setEnables_samePath (s : State) (v : Byte) : SamePath s (s.setEnables v) := by simp [SamePath, State.setEnables]

/-- The write of `$4015` keeps the invariant: it starts or stops the DMC, and leaves the noise register. -/
theorem execW4015_keeps_inv {v : Byte} (h : s.Inv) (hx : execW4015 v s = .next t) : t.Inv := by
  obtain rfl := answer_next_iff.mp hx
  have ⟨hcfg, _, _, hfs, hnoi, hdmc, _, _⟩ := h
  have hpath := setEnables_samePath (s.latchWrite 0x15 v) v
  refine (State.Inv.busWrite h (offset := 0x15) (by decide) (setEnables_shadow ..) hpath ?_ ?_ ?_).withResponse .nothing
  · rw [setEnables_fs, hpath.1, hpath.2.2.1]
    exact hfs
  · rw [setEnables_noi]
    exact hnoi
  · rw [setEnables_dmc]
    exact Dmc.Inv_setEnabled hcfg.1 (d := s.dmc.clearIrq) hdmc _

/-- A bus transaction keeps the invariant: a write by what it does to the units that have one, a read because it changes at
most the frame interrupt flag. -/
theorem bus_transaction_keeps_inv (hb : i.agent = .bus) (h : s.Inv) (hx : exec i s = .next t) : t.Inv := by
  have ⟨_, _, _, hfs, hnoi, hdmc, _, _⟩ := h
  cases i
  case w4017 v =>
    obtain rfl := answer_next_iff.mp hx
    exact h.busWrite (offset := 0x17) (by decide) rfl ⟨rfl, rfl, rfl, rfl, rfl, rfl⟩ (FrameSeq.Inv_write hfs v) hnoi hdmc
  case w4015 v =>
    exact execW4015_keeps_inv h hx
  case w4000 | w4001 | w4002 | w4003 | w4004 | w4005 | w4006 | w4007 | w4008 | w4009 | w400A | w400B | w400C | w400D |
      w400E | w400F | w4010 | w4011 | w4012 | w4013 | w4014 | w4016 =>
    -- what the write loads, no unit's invariant reads
    obtain rfl := answer_next_iff.mp hx
    exact h.busWrite (by decide) rfl ⟨rfl, rfl, rfl, rfl, rfl, rfl⟩ hfs hnoi hdmc
  case rd4000 | rd4001 | rd4002 | rd4003 | rd4004 | rd4005 | rd4006 | rd4007 | rd4008 | rd4009 | rd400A | rd400B |
      rd400C | rd400D | rd400E | rd400F | rd4010 | rd4011 | rd4012 | rd4013 | rd4014 | rd4015 | rd4016 |
      rd4017 =>
    obtain rfl := answer_next_iff.mp hx
    exact h
  all_goals cases hb

theorem renderRead_keeps_inv {count : Nat} (h : s.Inv) (hx : renderRead count s = .next t) : t.Inv := by
  obtain rfl := answer_next_iff.mp hx
  obtain ⟨hcfg, hshadow, hsample, hfs, hnoi, hdmc, hrs, hrb⟩ := h
  exact ⟨hcfg, hshadow, hsample, hfs, hnoi, hdmc, hrs, RingBuffer.Inv_report (RingBuffer.Inv_read hrb count)⟩

/-- Every stimulus keeps the invariant of the block (R39, R354). -/
theorem exec_keeps_inv (h : s.Inv) (hx : exec i s = .next t) : t.Inv := by
  have ⟨hcfg, hshadow, hsample, hfs, hnoi, hdmc, hrs, hrb⟩ := h
  cases i
  case clock =>
    obtain rfl := answer_next_iff.mp hx
    exact h.clock
  case reset =>
    obtain rfl := answer_next_iff.mp hx
    exact State.Inv_resetOf hcfg
  case dmaLoad b =>
    obtain ⟨hreq, rfl⟩ := execDmaLoad_next_iff.mp hx
    exact ⟨hcfg, hshadow, hsample, hfs, hnoi, Dmc.Inv_loadSampleByte hcfg.1 hdmc hreq b, hrs, hrb⟩
  case setRate r =>
    obtain rfl := answer_next_iff.mp hx
    exact ⟨hcfg, hshadow, hsample, hfs, hnoi, hdmc, Resampler.Inv_setRate hcfg.1 hcfg.baseStep_pos hrs r, hrb⟩
  case rsPull =>
    obtain rfl := answer_next_iff.mp hx
    exact ⟨hcfg, hshadow, hsample, hfs, hnoi, hdmc, Resampler.Inv_clearOut hrs, hrb⟩
  case rbWrite samples =>
    obtain rfl := answer_next_iff.mp hx
    exact ⟨hcfg, hshadow, hsample, hfs, hnoi, hdmc, hrs, RingBuffer.Inv_write hrb samples⟩
  case rbRead count =>
    obtain ⟨-, hr⟩ := execRbRead_next_iff.mp hx
    exact renderRead_keeps_inv h hr
  case dmaReq | sample | irq =>
    obtain rfl := answer_next_iff.mp hx
    exact h
  all_goals exact bus_transaction_keeps_inv rfl h hx

/-! What each stimulus does to the interrupt flags (R35, R407). -/

@[simp] theorem Dmc.consumeBit_irq (d : Dmc) : d.consumeBit.irq = d.irq := by
  unfold Dmc.consumeBit
  split <;> rfl

@[simp] theorem Dmc.clock_irq (d : Dmc) (cfg : Cfg) : (d.clock cfg).irq = d.irq := by
  unfold Dmc.clock
  split
  · exact Dmc.consumeBit_irq d
  · rfl

@[simp] theorem Dmc.setEnabled_irq (d : Dmc) (cfg : Cfg) (e : Bool) : (d.setEnabled cfg e).irq = d.irq := by
  cases e with
  | true =>
    simp only [Dmc.setEnabled, Dmc.start, if_true]
    split <;> rfl
  | false => rfl

/-- A byte's delivery may raise the DMC's flag and never clears it (R294, R295). -/
theorem Dmc.loadSampleByte_irq_of_irq {d : Dmc} (h : d.irq = true) (cfg : Cfg) (b : Byte) :
    (d.loadSampleByte cfg b).irq = true := by
  simp only [Dmc.loadSampleByte, Dmc.endOfSample]
  split
  · split
    · exact h
    · simp [Dmc.takeByte, h]
  · exact h

theorem State.clock_dmc_irq (s : State) : s.clock.dmc.irq = s.dmc.irq := by
  rw [clock_dmc]
  split
  · exact Dmc.clock_irq ..
  · rfl

/-- The frame flag stays but in a CLOCK, and in a status read and in RESET, which clear it. -/
theorem exec_frame_irq (hx : exec i s = .next t) :
    t.fs.irq = s.fs.irq ∨ i = .clock ∨ ((i = .rd4015 ∨ i = .reset) ∧ t.fs.irq = false) := by
  cases i
  case clock => exact .inr (.inl rfl)
  case rd4015 =>
    obtain rfl := answer_next_iff.mp hx
    exact .inr (.inr ⟨.inl rfl, rfl⟩)
  case reset =>
    obtain rfl := answer_next_iff.mp hx
    exact .inr (.inr ⟨.inr rfl, rfl⟩)
  case dmaLoad b =>
    obtain ⟨-, rfl⟩ := execDmaLoad_next_iff.mp hx
    exact .inl rfl
  case rbRead count =>
    obtain ⟨-, hr⟩ := execRbRead_next_iff.mp hx
    obtain rfl := answer_next_iff.mp hr
    exact .inl rfl
  all_goals
    obtain rfl := answer_next_iff.mp hx
    exact .inl rfl

/-- The DMC's flag stays but in a DMA_LOAD, which keeps it set, in a write of `$4010`, which masks it by bit 7, and in a write of
`$4015` and RESET, which clear it. -/
theorem exec_dmc_irq (hx : exec i s = .next t) :
    t.dmc.irq = s.dmc.irq ∨ (∃ b, i = .dmaLoad b ∧ (s.dmc.irq = true → t.dmc.irq = true)) ∨
      (∃ v, i = .w4010 v ∧ t.dmc.irq = (s.dmc.irq && bitSet v 7)) ∨
      ((i = .reset ∨ ∃ v, i = .w4015 v) ∧ t.dmc.irq = false) := by
  cases i
  case clock =>
    obtain rfl := answer_next_iff.mp hx
    exact .inl (State.clock_dmc_irq s)
  case dmaLoad b =>
    obtain ⟨-, rfl⟩ := execDmaLoad_next_iff.mp hx
    exact .inr (.inl ⟨b, rfl, fun h => Dmc.loadSampleByte_irq_of_irq h _ _⟩)
  case w4010 v =>
    obtain rfl := answer_next_iff.mp hx
    exact .inr (.inr (.inl ⟨v, rfl, by rw [bitSet_eq]; rfl⟩))
  case reset =>
    obtain rfl := answer_next_iff.mp hx
    exact .inr (.inr (.inr ⟨.inl rfl, rfl⟩))
  case w4015 v =>
    obtain rfl := answer_next_iff.mp hx
    exact .inr (.inr (.inr ⟨.inr ⟨v, rfl⟩, Dmc.setEnabled_irq ..⟩))
  case rbRead count =>
    obtain ⟨-, hr⟩ := execRbRead_next_iff.mp hx
    obtain rfl := answer_next_iff.mp hr
    exact .inl rfl
  all_goals
    obtain rfl := answer_next_iff.mp hx
    exact .inl rfl

end
end Sys2Proof.Machine

namespace Sys2Proof.Claims
open Sys2Proof.Machine

/-! The obligations. -/

/-- Settles O7: an idle step changes nothing, any other runs a stimulus on the state with the queue's head taken. -/
theorem stepKeepsTheInvariant : Obligations.StepKeepsTheInvariant := by
  intro s t h hstep
  obtain ⟨-, rfl⟩ | ⟨st, rest, i, -, -, hx⟩ := step_next_cases hstep
  · exact h
  · exact exec_keeps_inv (h.withQueue rest) hx

/-- Settles O13, from what each stimulus does to either flag. -/
theorem interruptFlagsMoveInTheListedStimuliOnly : Obligations.InterruptFlagsMoveInTheListedStimuliOnly := by
  intro i s t hx
  have hframe := exec_frame_irq hx
  have hdmc := exec_dmc_irq hx
  refine ⟨?_, ?_, ?_, ?_⟩ <;> intro hs ht
  · simpa [hs, ht] using hframe
  · obtain hsame | hclk | ⟨hi, -⟩ := hframe
    · simp [hs, ht] at hsame
    · exact .inl hclk
    · exact .inr hi
  · obtain hsame | ⟨b, hi, -⟩ | ⟨v, -, hmask⟩ | ⟨-, hclear⟩ := hdmc
    · simp [hs, ht] at hsame
    · exact ⟨b, hi⟩
    · simp [hs, ht] at hmask
    · simp [ht] at hclear
  · obtain hsame | ⟨b, -, hkeep⟩ | ⟨v, hi, hmask⟩ | ⟨hi, -⟩ := hdmc
    · simp [hs, ht] at hsame
    · simp [hkeep hs] at ht
    · exact .inr (.inr ⟨v, hi, by simpa [hs, ht] using hmask⟩)
    · exact hi.imp_right .inl

/-- Settles O8: each unit's reset values meet its part of the invariant. -/
theorem resetMeetsTheInvariant : Obligations.ResetMeetsTheInvariant :=
  ⟨State.Inv_resetOf Config.machine_valid, fun _ => State.Inv_resetOf⟩

end Sys2Proof.Claims
end

section
/-! PROOFS of the statements about the memory the agents share (20_memory.md): first what the ring buffer's operations leave and
deliver, then what a stimulus does to the ring buffer, then the bus byte read back after a write, then the four obligations. -/
namespace Sys2Proof.Machine

/-! The ring buffer's write, read and report (R351 to R353). The frames hold whatever the cursors. -/

namespace RingBuffer
variable {cap : Nat}

/-- The reads write the read cursor only. -/
theorem takeMany_snd (k : Nat) (rb : RingBuffer) :
    (takeMany cap k rb).2 = { rb with rd := (takeMany cap k rb).2.rd } := by
  induction k generalizing rb with
  | zero => rfl
  | succ k ih => exact ih (rb.advance cap)

/-- A read writes the read cursor and the occupancy only. -/
theorem read_frame (rb : RingBuffer) (count : Nat) : (rb.read cap count).2.2 =
    { rb with rd := (rb.read cap count).2.2.rd, occ := (rb.read cap count).2.2.occ } := by
  simp only [read]
  rw [takeMany_snd]

/-- The report writes the call count only. -/
theorem report_frame (rb : RingBuffer) (cfg : Cfg) :
    (rb.report cfg).2 = { rb with calls := (rb.report cfg).2.calls } := by
  unfold report
  split <;> rfl

/-- A read with its report leaves the cells and the write cursor. -/
theorem read_report_frame (rb : RingBuffer) (cfg : Cfg) (count : Nat) :
    ((rb.read cap count).2.2.report cfg).2.buf = rb.buf ∧ ((rb.read cap count).2.2.report cfg).2.wr = rb.wr := by
  rw [report_frame, read_frame]
  exact ⟨rfl, rfl⟩

/-- A write leaves the read cursor and the call count. -/
theorem write_frame (rb : RingBuffer) (l : List Rat) :
    (rb.write cap l).rd = rb.rd ∧ (rb.write cap l).calls = rb.calls := by
  obtain ⟨-, hrd, -, hcalls⟩ := putAll_frame (cap := cap) (l.take (rb.room cap l)) rb
  exact ⟨hrd, hcalls⟩

/-- The samples that a read transfers, its fill zeros left out, are the first of those buffered. -/
theorem read_take_contents (rb : RingBuffer) (hr : rb.rd < cap) (count : Nat) :
    (rb.read cap count).1.take (rb.read cap count).2.1 = (rb.contents cap).take (rb.read cap count).2.1 := by
  have hlen := (takeMany_frame (min count rb.occ) rb hr).1
  exact (List.take_left' hlen).trans (takeMany_contents _ (Nat.min_le_right ..) hr)

/-- The samples that a read leaves are those after the ones transferred. -/
theorem contents_read (rb : RingBuffer) (hr : rb.rd < cap) (count : Nat) :
    (rb.read cap count).2.2.contents cap = (rb.contents cap).drop (rb.read cap count).2.1 := by
  simp only [read, (takeMany_frame _ rb hr).2]
  exact contents_advance _

/-- The report leaves the samples buffered. -/
theorem contents_report (rb : RingBuffer) (cfg : Cfg) : (rb.report cfg).2.contents cap = rb.contents cap := by
  rw [report_frame]
  rfl

end RingBuffer

section
variable {s t : State} {i : Instr}

/-! What the stimuli do to the ring buffer (R95, R415). -/

/-- RB_READ is the one stimulus of the render context (R5). -/
theorem context_eq_render_iff : i.agent.context = .render ↔ ∃ count, i = .rbRead count := by
  cases i <;> simp [Instr.agent, Agent.context]

theorem bus_transaction_keeps_rb (hb : i.agent = .bus) (hx : exec i s = .next t) : t.rb = s.rb := by
  obtain ⟨u, r, hu, -, -, -, -, -, hrb⟩ := bus_transaction_answers hb s
  obtain rfl := answer_next_iff.mp (hu ▸ hx)
  exact hrb

/-- A stimulus other than RESET and the ring buffer's own two leaves the ring buffer as it is. -/
theorem exec_keeps_rb (hx : exec i s = .next t) (hreset : i ≠ .reset) (hwrite : ∀ l, i ≠ .rbWrite l)
    (hread : ∀ count, i ≠ .rbRead count) : t.rb = s.rb := by
  cases i
  case reset => exact absurd rfl hreset
  case rbWrite l => exact absurd rfl (hwrite l)
  case rbRead count => exact absurd rfl (hread count)
  case clock =>
    obtain rfl := answer_next_iff.mp hx
    exact clock_rb s
  case dmaLoad b =>
    obtain ⟨-, rfl⟩ := execDmaLoad_next_iff.mp hx
    rfl
  case dmaReq | sample | irq | setRate | rsPull =>
    obtain rfl := answer_next_iff.mp hx
    rfl
  all_goals exact bus_transaction_keeps_rb rfl hx

/-! The ring buffer as a queue, one call at a time (R351, R352). -/

/-- RB_WRITE puts the samples it accepts behind those buffered. -/
theorem exec_rbWrite_enqueues {l : List Rat} {k : Nat} (h : s.rb.Inv s.cfg) (hx : exec (.rbWrite l) s = .next t)
    (hk : t.response = .accepted k) :
    t.rb.Inv t.cfg ∧ t.rb.contents t.cfg.rbCap = s.rb.contents s.cfg.rbCap ++ l.take k := by
  obtain rfl := answer_next_iff.mp hx
  obtain rfl : s.rb.room s.cfg.rbCap l = k := Response.accepted.inj hk
  exact ⟨RingBuffer.Inv_write h l, RingBuffer.contents_write h l⟩

/-- RB_READ takes the samples it transfers from the front of those buffered. -/
theorem exec_rbRead_dequeues {count : Int} {out : List Rat} {k : Nat} {rep : Option Rat} (h : s.rb.Inv s.cfg)
    (hx : exec (.rbRead count) s = .next t) (hk : t.response = .rendered out k rep) :
    t.rb.Inv t.cfg ∧ s.rb.contents s.cfg.rbCap = out.take k ++ t.rb.contents t.cfg.rbCap := by
  have ⟨_, _, hrd, _⟩ := h
  obtain ⟨-, hr⟩ := execRbRead_next_iff.mp hx
  obtain rfl := answer_next_iff.mp hr
  obtain ⟨rfl, rfl, -⟩ := Response.rendered.inj hk
  refine ⟨RingBuffer.Inv_report (RingBuffer.Inv_read h _), ?_⟩
  have hout := s.rb.read_take_contents hrd count.toNat
  have hrest := (RingBuffer.contents_report _ s.cfg).trans (s.rb.contents_read hrd count.toNat)
  exact (List.take_append_drop ..).symm.trans (congrArg₂ (· ++ ·) hout.symm hrest.symm)

/-! The open bus after a write (R88; D20). -/

/-- A latched byte is what its offset reads as, in either mode: it stands in the shadow byte and in the latch. -/
theorem Latched.openBusByte_eq {offset : Nat} {v : Byte} (h : Latched offset v s t) : t.openBusByte offset = v := by
  obtain ⟨hshadow, -, hlatch⟩ := h
  cases hm : t.cfg.openBusMode with
  | perOffset => rw [openBusByte_perOffset hm, hshadow]
  | singleLatch => rw [openBusByte_singleLatch hm, hlatch]

/-- A write that latches its byte, and then the open-bus read of the same offset. -/
theorem openBusRead_after_write {w r : Instr} {u : State} {offset : Nat} {v : Byte} (hwf : s.shadow.wf = true)
    (hr : ∀ t, exec r t = openBusRead offset t) (hw : exec w s = answer u .nothing)
    (hs : u.shadow = s.shadow.write (busAddress offset) v) (hb : u.busLatch = v) :
    ∃ t u, exec w s = .next t ∧ exec r t = .next u ∧ u.response = .byte v := by
  have hlatched : Latched offset v s (u.withResponse .nothing) := by
    refine ⟨?_, fun a ha => ?_, hb⟩
    · rw [State.withResponse_shadow, hs, Memory.read_write_same hwf]
    · rw [State.withResponse_shadow, hs, Memory.read_write_other ha]
  refine ⟨_, _, hw, hr _, ?_⟩
  rw [State.withResponse_response, hlatched.openBusByte_eq]

/-! The observations. -/

/-- A request is pending while the channel is active, has no bit left and a byte to fetch (R292). -/
theorem Dmc.request_eq (d : Dmc) : d.request =
    if d.active = true ∧ d.bits.toNat = 0 ∧ d.bytes.toNat ≠ 0 then some d.curAddr else none := by
  have hbits : d.bits = 0 ↔ d.bits.toNat = 0 := BitVec.toNat_inj.symm
  simp only [request, hbits, Nat.pos_iff_ne_zero]

end
end Sys2Proof.Machine

namespace Sys2Proof.Claims
open Sys2Proof.Machine

/-! The obligations. -/

/-- Settles O14: a render read is the ring buffer's read and report, which write no other field, and of the emulation context's
stimuli only RESET and RB_WRITE reach the ring buffer. -/
theorem contextsShareOnlyTheRingBuffer : Obligations.ContextsShareOnlyTheRingBuffer := by
  intro i s t hx
  constructor
  · intro hrender
    obtain ⟨count, rfl⟩ := context_eq_render_iff.mp hrender
    obtain ⟨-, hr⟩ := execRbRead_next_iff.mp hx
    obtain rfl := answer_next_iff.mp hr
    exact ⟨by simp [SameUnitsExcept], ⟨fun _ => rfl, rfl⟩, rfl, rfl, rfl, rfl, rfl, s.rb.read_report_frame ..⟩
  · intro hemulation hreset
    have hread : ∀ count, i ≠ .rbRead count := by
      rintro count rfl
      cases hemulation
    by_cases hwrite : ∃ l, i = .rbWrite l
    · obtain ⟨l, rfl⟩ := hwrite
      obtain rfl := answer_next_iff.mp hx
      obtain ⟨hrd, hcalls⟩ := s.rb.write_frame l
      exact ⟨hrd, hcalls, fun h => absurd rfl (h l)⟩
    · have hrb := exec_keeps_rb hx hreset (not_exists.mp hwrite) hread
      exact ⟨congrArg RingBuffer.rd hrb, congrArg RingBuffer.calls hrb, fun _ => hrb⟩

/-- Settles O26: every write of the list latches its byte, which the read of the same offset then gives. -/
theorem openBusReadGivesTheLastWrite : Obligations.OpenBusReadGivesTheLastWrite := by
  intro v s hwf
  simp only [openBusPairs, List.forall_mem_cons, List.not_mem_nil, false_implies, implies_true, and_true]
  and_intros
  all_goals exact openBusRead_after_write hwf (fun _ => rfl) rfl rfl rfl

/-- Settles O58, by induction on the run: a write appends what it accepts, a read delivers from the front. -/
theorem ringBufferIsAQueue : Obligations.RingBufferIsAQueue := by
  intro s t calls acc del hinv hrun
  induction hrun with
  | done s => simp
  | write h hk rest ih =>
    obtain ⟨hinv', hcontents⟩ := exec_rbWrite_enqueues hinv h hk
    rw [← ih hinv', hcontents, List.append_assoc]
  | read h hk rest ih =>
    obtain ⟨hinv', hcontents⟩ := exec_rbRead_dequeues hinv h hk
    rw [hcontents, List.append_assoc, ih hinv', List.append_assoc]

/-- Settles O28: each port answers from the state as it is. -/
theorem observationPortsChangeNothing : Obligations.ObservationPortsChangeNothing := by
  intro s
  rw [← Dmc.request_eq]
  exact ⟨.of_answer rfl, .of_answer rfl, .of_answer rfl⟩

end Sys2Proof.Claims
end

section
/-! PROOFS of the statements about the encoding (30_encoding.md): first what each part of the decoder accepts, then that it and
the encoder are inverse, then what each bus write loads into its unit, then the eleven obligations. -/
namespace Sys2Proof

/-! What the decoder reads from an encoding (R111, R138). -/

theorem decode_pack (f : Fields) (p : Payload) : decode ⟨pack f, p⟩ = decodeFields f p := by
  rw [decode, fieldsOf_pack]

theorem decode_busWriteStimulus (a : BusAddr) (v : Byte) : decode (busWriteStimulus a v) = decodeWrite a v := by
  rw [busWriteStimulus, decode_pack]
  rfl

theorem decode_busReadStimulus (a : BusAddr) : decode (busReadStimulus a) = decodeRead a := by
  rw [busReadStimulus, decode_pack]
  rfl

theorem decode_portStimulus (port : BitVec 4) (d : Byte) (p : Payload) :
    decode (portStimulus port d p) = decodeFields ⟨port, 0, 0, d⟩ p := by
  rw [portStimulus, decode_pack]

/-- Decoding inverts encoding: the encoder's literal port and address select the decoder's arm. -/
theorem decode_encode (i : Instr) : decode (encode i) = .ok i := by
  cases i
  case w4000 | w4001 | w4002 | w4003 | w4004 | w4005 | w4006 | w4007 | w4008 | w4009 | w400A | w400B | w400C | w400D |
      w400E | w400F | w4010 | w4011 | w4012 | w4013 | w4014 | w4015 | w4016 | w4017 =>
    exact decode_busWriteStimulus ..
  case rd4000 | rd4001 | rd4002 | rd4003 | rd4004 | rd4005 | rd4006 | rd4007 | rd4008 | rd4009 | rd400A | rd400B |
      rd400C | rd400D | rd400E | rd400F | rd4010 | rd4011 | rd4012 | rd4013 | rd4014 | rd4015 | rd4016 | rd4017 =>
    exact decode_busReadStimulus ..
  case clock | reset | dmaReq | dmaLoad | sample | irq | setRate | rsPull | rbWrite | rbRead =>
    exact decode_portStimulus ..

/-! What each part of the decoder accepts (R111, R136, R140). -/

section
variable {f : Fields} {p : Payload} {i j : Instr} {a : BusAddr} {v : Byte}

theorem decodePlain_eq_ok_iff :
    decodePlain f i p = .ok j ↔ p = .none ∧ f.rw = 0 ∧ f.addr = 0 ∧ f.data = 0 ∧ i = j := by
  cases p with
  | none =>
    rw [decodePlain]
    split <;> simp_all
  | _ => simp [decodePlain]

theorem decodeDmaLoad_eq_ok_iff :
    decodeDmaLoad f p = .ok i ↔ p = .none ∧ f.rw = 0 ∧ f.addr = 0 ∧ .dmaLoad f.data = i := by
  cases p with
  | none =>
    rw [decodeDmaLoad]
    split <;> simp_all
  | _ => simp [decodeDmaLoad]

theorem decodeSetRate_eq_ok_iff : decodeSetRate f p = .ok i ↔
    ∃ r, p = .ratio r ∧ f.rw = 0 ∧ f.addr = 0 ∧ f.data = 0 ∧ .setRate r = i := by
  cases p <;> simp [decodeSetRate, decodePlain_eq_ok_iff]

theorem decodeRbWrite_eq_ok_iff : decodeRbWrite f p = .ok i ↔
    ∃ l, p = .samples l ∧ f.rw = 0 ∧ f.addr = 0 ∧ f.data = 0 ∧ .rbWrite l = i := by
  cases p <;> simp [decodeRbWrite, decodePlain_eq_ok_iff]

theorem decodeRbRead_eq_ok_iff : decodeRbRead f p = .ok i ↔
    ∃ n, p = .count n ∧ f.rw = 0 ∧ f.addr = 0 ∧ f.data = 0 ∧ .rbRead n = i := by
  cases p <;> simp [decodeRbRead, decodePlain_eq_ok_iff]

theorem decodeBus_eq_ok_iff : decodeBus f p = .ok i ↔ p = .none ∧
    (f.rw = 1 ∧ decodeWrite f.addr f.data = .ok i ∨ f.rw = 0 ∧ f.data = 0 ∧ decodeRead f.addr = .ok i) := by
  cases p with
  | none =>
    obtain hr | hw := BitVec.eq_zero_or_eq_one f.rw
    · rw [decodeBus, if_neg (by simp [hr])]
      split <;> simp_all
    · simp [decodeBus, hw]
  | _ => simp [decodeBus]

/-- A write decodes at the 24 offsets (R80, R83). -/
theorem decodeWrite_of_window (v : Byte) (hlo : 0x4000 ≤ a.toNat) (hhi : a.toNat ≤ 0x4017) :
    ∃ i, decodeWrite a v = .ok i := by
  unfold decodeWrite
  generalize a.toNat = n at hlo hhi ⊢
  interval_cases n
  all_goals exact ⟨_, rfl⟩

/-- A read decodes at the 24 offsets (R80, R83). -/
theorem decodeRead_of_window (hlo : 0x4000 ≤ a.toNat) (hhi : a.toNat ≤ 0x4017) : ∃ i, decodeRead a = .ok i := by
  unfold decodeRead
  generalize a.toNat = n at hlo hhi ⊢
  interval_cases n
  all_goals exact ⟨_, rfl⟩

/-! What decodes is encoded back to the same fields and payload. -/

theorem encode_of_decodeWrite (h : decodeWrite a v = .ok i) : encode i = busWriteStimulus a v := by
  unfold decodeWrite at h
  split at h
  case h_25 => cases h
  all_goals
    next ha =>
    obtain rfl := Except.ok.inj h
    exact congrArg (busWriteStimulus · v) (BitVec.eq_of_toNat_eq ha.symm)

theorem encode_of_decodeRead (h : decodeRead a = .ok i) : encode i = busReadStimulus a := by
  unfold decodeRead at h
  split at h
  case h_25 => cases h
  all_goals
    next ha =>
    obtain rfl := Except.ok.inj h
    exact congrArg busReadStimulus (BitVec.eq_of_toNat_eq ha.symm)

/-- The stimulus of the bus port with no payload is a write or a read, by `rw`. -/
theorem encode_of_decodeBus (hport : f.port = 0) (h : decodeBus f p = .ok i) : encode i = ⟨pack f, p⟩ := by
  obtain ⟨port, rw, addr, data⟩ := f
  subst hport
  obtain ⟨rfl, ⟨hrw, hw⟩ | ⟨hrw, hdata, hr⟩⟩ := decodeBus_eq_ok_iff.mp h
  · subst hrw
    exact encode_of_decodeWrite hw
  · subst hrw hdata
    exact encode_of_decodeRead hr

/-- A word whose `rw` and `addr` are 0 is the one of its port and data. -/
theorem portStimulus_eq {n : BitVec 4} {d : Byte} (hport : f.port = n) (hrw : f.rw = 0) (haddr : f.addr = 0)
    (hdata : f.data = d) : portStimulus n d p = ⟨pack f, p⟩ := by
  obtain ⟨port, rw, addr, data⟩ := f
  subst hport hrw haddr hdata
  rfl

/-- By port code: what decodes has the port's payload, and its unused fields are 0. -/
theorem encode_of_decodeFields (h : decodeFields f p = .ok i) : encode i = ⟨pack f, p⟩ := by
  unfold decodeFields at h
  split at h <;> rename_i hport
  case h_12 => cases h
  case h_1 => exact encode_of_decodeBus (BitVec.eq_of_toNat_eq hport) h
  case h_5 =>
    obtain ⟨rfl, hrw, haddr, rfl⟩ := decodeDmaLoad_eq_ok_iff.mp h
    exact portStimulus_eq (BitVec.eq_of_toNat_eq hport) hrw haddr rfl
  case h_8 =>
    obtain ⟨r, rfl, hrw, haddr, hdata, rfl⟩ := decodeSetRate_eq_ok_iff.mp h
    exact portStimulus_eq (BitVec.eq_of_toNat_eq hport) hrw haddr hdata
  case h_10 =>
    obtain ⟨l, rfl, hrw, haddr, hdata, rfl⟩ := decodeRbWrite_eq_ok_iff.mp h
    exact portStimulus_eq (BitVec.eq_of_toNat_eq hport) hrw haddr hdata
  case h_11 =>
    obtain ⟨n, rfl, hrw, haddr, hdata, rfl⟩ := decodeRbRead_eq_ok_iff.mp h
    exact portStimulus_eq (BitVec.eq_of_toNat_eq hport) hrw haddr hdata
  all_goals
    obtain ⟨rfl, hrw, haddr, hdata, rfl⟩ := decodePlain_eq_ok_iff.mp h
    exact portStimulus_eq (BitVec.eq_of_toNat_eq hport) hrw haddr hdata

theorem encode_of_decode {st : Stimulus} (h : decode st = .ok i) : encode i = st := by
  rw [encode_of_decodeFields h, pack_fieldsOf]

/-! Well-formed fields and payloads are those that decode (R111, R136, R140). -/

theorem encode_wellFormed (i : Instr) : Laws.EncodesWellFormed.Statement i := by
  cases i
  case w4000 | w4001 | w4002 | w4003 | w4004 | w4005 | w4006 | w4007 | w4008 | w4009 | w400A | w400B | w400C | w400D |
      w400E | w400F | w4010 | w4011 | w4012 | w4013 | w4014 | w4015 | w4016 | w4017 =>
    exact Laws.EncodesWellFormed.busWrite _ (by decide)
  case clock | reset | dmaReq | dmaLoad | sample | irq | setRate | rsPull | rbWrite | rbRead =>
    exact Laws.EncodesWellFormed.port rfl
  all_goals rfl -- the reads, whose words are fixed

/-- The checks of `wellFormed` as propositions. -/
theorem Fields.wellFormed_iff : f.wellFormed p = true ↔
    f.port.toNat ≤ 10 ∧ (f.port = 0 → 0x4000 ≤ f.addr.toNat ∧ f.addr.toNat ≤ 0x4017) ∧
      (f.port ≠ 0 → f.rw = 0 ∧ f.addr = 0) ∧ (f.port = 0 ∧ f.rw = 1 ∨ f.port = 4 ∨ f.data = 0) ∧
      f.payloadFits p = true := by
  simp only [wellFormed, portAssigned, addrInWindow, portFieldsZero, dataZero, Bool.and_eq_true, Bool.or_eq_true,
    decide_eq_true_eq, bne_iff_ne, beq_iff_eq]
  tauto

/-- A well-formed bus transaction decodes: a write, or a read with its data 0. -/
theorem decodeBus_of_wellFormed (hport : f.port = 0) (h : f.wellFormed p = true) : ∃ i, decodeBus f p = .ok i := by
  obtain ⟨-, hwindow, -, hdata, hfits⟩ := Fields.wellFormed_iff.mp h
  obtain ⟨hlo, hhi⟩ := hwindow hport
  obtain rfl : p = .none := by cases p <;> simp_all [Fields.payloadFits]
  obtain hrw | hrw := BitVec.eq_zero_or_eq_one f.rw
  · have hd : f.data = 0 := by simpa [hport, hrw] using hdata
    obtain ⟨i, hi⟩ := decodeRead_of_window hlo hhi
    exact ⟨i, decodeBus_eq_ok_iff.mpr ⟨rfl, .inr ⟨hrw, hd, hi⟩⟩⟩
  · obtain ⟨i, hi⟩ := decodeWrite_of_window f.data hlo hhi
    exact ⟨i, decodeBus_eq_ok_iff.mpr ⟨rfl, .inl ⟨hrw, hi⟩⟩⟩

/-- The ports that take neither a data byte nor a payload (R111). -/
theorem plainPort_cases : ∀ n : BitVec 4, n.toNat ≤ 10 → n ≠ 0 → n ≠ 4 →
    Fields.payloadFits ⟨n, 0, 0, 0⟩ .none = true → n = 1 ∨ n = 2 ∨ n = 3 ∨ n = 5 ∨ n = 6 ∨ n = 8 := by
  decide

/-- Well-formed fields and payload decode: off the bus the payload and the port say which stimulus it is. -/
theorem decodeFields_of_wellFormed (h : f.wellFormed p = true) : ∃ i, decodeFields f p = .ok i := by
  have ⟨hassigned, _, hzero, hdata, hfits⟩ := Fields.wellFormed_iff.mp h
  obtain ⟨port, rw, addr, data⟩ := f
  by_cases hbus : port = 0
  · subst hbus
    exact decodeBus_of_wellFormed rfl h
  obtain ⟨rfl, rfl⟩ := hzero hbus
  by_cases hload : port = 4
  · subst hload
    obtain rfl : p = .none := by cases p <;> simp_all [Fields.payloadFits]
    exact ⟨.dmaLoad data, rfl⟩
  obtain rfl : data = 0 := (hdata.resolve_left fun h => hbus h.1).resolve_left hload
  cases p with
  | ratio r =>
    obtain rfl : port = 7 := by simpa [Fields.payloadFits] using hfits
    exact ⟨.setRate r, rfl⟩
  | samples l =>
    obtain rfl : port = 9 := by simpa [Fields.payloadFits] using hfits
    exact ⟨.rbWrite l, rfl⟩
  | count n =>
    obtain rfl : port = 10 := by simpa [Fields.payloadFits] using hfits
    exact ⟨.rbRead n, rfl⟩
  | none =>
    obtain rfl | rfl | rfl | rfl | rfl | rfl := plainPort_cases port hassigned hbus hload hfits
    all_goals exact ⟨_, rfl⟩

end
end Sys2Proof

namespace Sys2Proof.Machine
open Sys2Proof.Claims

/-! What a bus write loads into its unit, field by field (R113 to R126). -/

/-- The length counter's load is gated by the channel's enable (R216). -/
theorem lengthLoaded_loadedLength (cfg : Cfg) (v : Byte) (enabled : Bool) (n : BitVec 8) :
    LengthLoaded cfg v enabled n (Operand.loadedLength cfg enabled v n) := by
  cases enabled with
  | true =>
    refine ⟨fun _ => ?_, nofun⟩
    rw [Operand.loadedLength_enabled, ← Operand.lengthIndex_toNat, Operand.lengthOf]
    simp
  | false => exact ⟨nofun, fun _ => Operand.loadedLength_disabled cfg v n⟩

theorem Pulse.writeSweep_loads (p : Pulse) (v : Byte) : PulseSweepLoaded v p (p.writeSweep v) :=
  ⟨(bitSet_eq v 7).symm, Operand.sweepPeriod_toNat v, (bitSet_eq v 3).symm, Operand.sweepShift_toNat v, rfl, rfl,
    rfl, rfl, rfl, rfl, rfl, rfl, rfl, rfl⟩

theorem Pulse.writeTimerLow_loads (p : Pulse) (v : Byte) : PulseTimerLowLoaded v p (p.writeTimerLow v) :=
  ⟨Operand.periodLow_toNat p.period v, rfl, rfl, rfl, rfl, rfl, rfl, rfl, rfl⟩

namespace Triangle
variable (t : Triangle) (cfg : Cfg) (v : Byte)

theorem writeControl_loads : TriangleControlLoaded v t (t.writeControl v) :=
  ⟨(bitSet_eq v 7).symm, Operand.triReload_toNat v, rfl, rfl, rfl, rfl, rfl, rfl, rfl⟩

theorem writeTimerLow_loads : TriangleTimerLowLoaded v t (t.writeTimerLow v) :=
  ⟨Operand.periodLow_toNat t.period v, rfl, rfl, rfl, rfl, rfl, rfl, rfl, rfl⟩

theorem writeTimerHigh_loads : TriangleTimerHighLoaded cfg v t (t.writeTimerHigh cfg v) :=
  ⟨lengthLoaded_loadedLength cfg v t.enabled t.length, Operand.periodHigh_toNat t.period v, rfl,
    rfl, rfl, rfl, rfl, rfl, rfl⟩

end Triangle

namespace Noise
variable (n : Noise) (cfg : Cfg) (v : Byte)

theorem writeControl_loads : NoiseControlLoaded v n (n.writeControl v) :=
  ⟨(bitSet_eq v 5).symm, (bitSet_eq v 5).symm, (bitSet_eq v 4).symm, Operand.vol_toNat v,
    rfl, rfl, rfl, rfl, rfl, rfl, rfl, rfl, rfl⟩

theorem writePeriod_loads : NoisePeriodLoaded v n (n.writePeriod v) :=
  ⟨(bitSet_eq v 7).symm, Operand.noisePeriodIdx_toNat v, rfl, rfl, rfl, rfl, rfl, rfl⟩

theorem writeLength_loads : NoiseLengthLoaded cfg v n (n.writeLength cfg v) :=
  ⟨lengthLoaded_loadedLength cfg v n.enabled n.length, rfl, rfl, rfl, rfl, rfl, rfl, rfl, rfl, rfl, rfl, rfl, rfl⟩

end Noise

theorem Dmc.writeControl_loads (d : Dmc) (v : Byte) : DmcControlLoaded v d (d.writeControl v) :=
  ⟨(bitSet_eq v 7).symm, by rw [bitSet_eq]; rfl, (bitSet_eq v 6).symm, Operand.dmcRateIdx_toNat v, rfl, rfl, rfl,
    rfl, rfl, rfl, rfl, rfl, rfl⟩

/-! A bus write runs, stores its byte, and leaves every unit but the one it loads (R82): one rule per unit. -/

namespace WriteCompletes
variable {i : Instr} {offset : Nat} {v : Byte} {s : State} {R : State → Prop} (hw : s.shadow.wf = true)
include hw

theorem of_shadowOnly (h : exec i s = shadowOnlyWrite offset v s) :
    WriteCompletes i offset v [] s (fun _ => True) :=
  .of_answer hw h rfl rfl ⟨rfl, rfl, rfl, rfl, rfl, rfl⟩ (by simp [SameUnitsExcept]) trivial

theorem of_p1 {p : Pulse} (h : exec i s = pulseWrite .one offset v s p)
    (hR : R (((s.latchWrite offset v).withP1 p).withResponse .nothing)) : WriteCompletes i offset v [.p1] s R :=
  .of_answer hw h rfl rfl ⟨rfl, rfl, rfl, rfl, rfl, rfl⟩ (by simp [SameUnitsExcept]) hR

theorem of_p2 {p : Pulse} (h : exec i s = pulseWrite .two offset v s p)
    (hR : R (((s.latchWrite offset v).withP2 p).withResponse .nothing)) : WriteCompletes i offset v [.p2] s R :=
  .of_answer hw h rfl rfl ⟨rfl, rfl, rfl, rfl, rfl, rfl⟩ (by simp [SameUnitsExcept]) hR

theorem of_tri {t : Triangle} (h : exec i s = answer ((s.latchWrite offset v).withTri t) .nothing)
    (hR : R (((s.latchWrite offset v).withTri t).withResponse .nothing)) : WriteCompletes i offset v [.tri] s R :=
  .of_answer hw h rfl rfl ⟨rfl, rfl, rfl, rfl, rfl, rfl⟩ (by simp [SameUnitsExcept]) hR

theorem of_noi {n : Noise} (h : exec i s = answer ((s.latchWrite offset v).withNoi n) .nothing)
    (hR : R (((s.latchWrite offset v).withNoi n).withResponse .nothing)) : WriteCompletes i offset v [.noi] s R :=
  .of_answer hw h rfl rfl ⟨rfl, rfl, rfl, rfl, rfl, rfl⟩ (by simp [SameUnitsExcept]) hR

theorem of_dmc {d : Dmc} (h : exec i s = answer ((s.latchWrite offset v).withDmc d) .nothing)
    (hR : R (((s.latchWrite offset v).withDmc d).withResponse .nothing)) : WriteCompletes i offset v [.dmc] s R :=
  .of_answer hw h rfl rfl ⟨rfl, rfl, rfl, rfl, rfl, rfl⟩ (by simp [SameUnitsExcept]) hR

end WriteCompletes
end Sys2Proof.Machine

namespace Sys2Proof.Claims
open Sys2Proof.Machine

/-! The obligations. -/

/-- Settles O1, by the stimulus: a packed word has the fields packed, and these decode to it. -/
theorem decodeReadsBackEncode : Obligations.DecodeReadsBackEncode := decode_encode

/-- Settles O2: each part of the decoder accepts only the fields and the payload of what it gives, and a word is its fields,
packed. -/
theorem encodeReadsBackDecode : Obligations.EncodeReadsBackDecode := fun _ _ => encode_of_decode

/-- Settles O3: what decodes is an encoding, and encodings are well formed; well-formed fields and payload name a stimulus. -/
theorem decodesExactlyTheWellFormed : Obligations.DecodesExactlyTheWellFormed := by
  refine fun st => ⟨?_, decodeFields_of_wellFormed⟩
  rintro ⟨i, hi⟩
  rw [← encode_of_decode hi]
  exact encode_wellFormed i

/-- Settles O16, from what the write loads into either channel. -/
theorem pulseSweepWriteLoadsItsFields : Obligations.PulseSweepWriteLoadsItsFields := fun v s hw =>
  ⟨.of_p1 hw rfl (s.p1.writeSweep_loads v), .of_p2 hw rfl (s.p2.writeSweep_loads v)⟩

/-- Settles O17, from what the write loads into either channel. -/
theorem pulseTimerLowWriteLoadsTheLowByte : Obligations.PulseTimerLowWriteLoadsTheLowByte := fun v s hw =>
  ⟨.of_p1 hw rfl (s.p1.writeTimerLow_loads v), .of_p2 hw rfl (s.p2.writeTimerLow_loads v)⟩

/-- Settles O19, from what each write loads. -/
theorem triangleWritesLoadTheirFields : Obligations.TriangleWritesLoadTheirFields := fun v s hw =>
  ⟨.of_tri hw rfl (s.tri.writeControl_loads v), .of_tri hw rfl (s.tri.writeTimerLow_loads v),
    .of_tri hw rfl (s.tri.writeTimerHigh_loads s.cfg v)⟩

/-- Settles O20, from what each write loads. -/
theorem noiseWritesLoadTheirFields : Obligations.NoiseWritesLoadTheirFields := fun v s hw =>
  ⟨.of_noi hw rfl (s.noi.writeControl_loads v), .of_noi hw rfl (s.noi.writePeriod_loads v),
    .of_noi hw rfl (s.noi.writeLength_loads s.cfg v)⟩

/-- Settles O21: W4010 loads the control fields, the other three one field each. -/
theorem dmcWritesLoadTheirFields : Obligations.DmcWritesLoadTheirFields := fun v s hw =>
  ⟨.of_dmc hw rfl (s.dmc.writeControl_loads v),
    .of_dmc hw rfl ⟨Operand.dmcLevel_toNat v, rfl, rfl, ⟨rfl, rfl, rfl, rfl⟩, ⟨rfl, rfl, rfl, rfl, rfl, rfl⟩⟩,
    .of_dmc hw rfl ⟨rfl, rfl, rfl, ⟨rfl, rfl, rfl, rfl⟩, ⟨rfl, rfl, rfl, rfl, rfl, rfl⟩⟩,
    .of_dmc hw rfl ⟨rfl, rfl, rfl, ⟨rfl, rfl, rfl, rfl⟩, ⟨rfl, rfl, rfl, rfl, rfl, rfl⟩⟩⟩

/-- Settles O22: the four arms are the write that stores its byte only. -/
theorem unusedWritesStoreTheByteOnly : Obligations.UnusedWritesStoreTheByteOnly := fun _ _ hw =>
  ⟨.of_shadowOnly hw rfl, .of_shadowOnly hw rfl, .of_shadowOnly hw rfl, .of_shadowOnly hw rfl⟩

/-- Settles O4, by running the decoder on the written-out words. -/
theorem writtenOutWordsDecode : Obligations.WrittenOutWordsDecode :=
  ⟨rfl, rfl, rfl, rfl, rfl, rfl, rfl, rfl, rfl, rfl, rfl, rfl, rfl, rfl, rfl⟩

/-- Settles O6, from the two ways a step can run no stimulus. -/
theorem stepRefusesTheUndecodedAndIdles : Obligations.StepRefusesTheUndecodedAndIdles :=
  ⟨fun _ _ _ _ => step_undecoded, fun _ => step_idle⟩

end Sys2Proof.Claims
end

section
/-! PROOFS of the statements about the frame sequencer (40_frame_sequencer.md): first the schedule of either mode and what a write
does when it falls due, then how long a pending write waits, then the status byte's bits, then the four obligations. -/
namespace Sys2Proof.Machine
open Sys2Proof.Claims

namespace FrameSeq
variable {fs : FrameSeq} {p : Pending} {cfg : Cfg} {c : Nat}

/-! The schedule at a position past the origin (R150 to R154). -/

theorem schedule_fourStep (h : cfg.Source) (hm : fs.mode = .fourStep) : fs.schedule cfg c =
    { quarter := decide ((c - fs.base) % 29830 ∈ [7459, 14913, 22371, 29829])
      half := decide ((c - fs.base) % 29830 ∈ [14913, 29829])
      irqPulse := decide ((c - fs.base) % 29830 = 29829) && !fs.inhibit } := by
  have hrel : (c - fs.base) % 29830 = fs.rel cfg c := by rw [rel, hm, FsMode.period, h.period4]
  rw [hrel]
  simp [schedule, atStep, hm, FsMode.steps, FsMode.halves, h.steps4, h.half4, Bool.beq_eq_decide_eq,
    eq_comm (b := fs.rel cfg c)]

theorem schedule_fiveStep (h : cfg.Source) (hm : fs.mode = .fiveStep) : fs.schedule cfg c =
    { quarter := decide ((c - fs.base) % cfg.period5 ∈ [7459, 14913, 22371, 29829, 37281])
      half := decide ((c - fs.base) % cfg.period5 ∈ [14913, 29829, 37281])
      irqPulse := false } := by
  have hrel : (c - fs.base) % cfg.period5 = fs.rel cfg c := by rw [rel, hm, FsMode.period]
  rw [hrel]
  simp [schedule, atStep, hm, FsMode.steps, FsMode.halves, h.steps5, h.half5, Bool.beq_eq_decide_eq,
    eq_comm (b := fs.rel cfg c)]

/-! A write that falls due (R157, R158). -/

theorem takeEffect_mode : (fs.takeEffect p).mode = if p.value.getLsbD 7 then .fiveStep else .fourStep := rfl

/-- The CLOCK in which a write falls due before its schedule's first step loads the write and fires the immediate frames alone:
a 4-step schedule has no pulse yet at that position, and a 5-step one never has an interrupt pulse. -/
theorem clock_due (h : cfg.Source) (hp : fs.pend = some p) (hc : c = p.issue + p.delay) (hd : p.delay < 7459) :
    fs.clock cfg c = (⟨p.value.getLsbD 7, p.value.getLsbD 7, false⟩, fs.takeEffect p) := by
  have hrel : (c - (fs.takeEffect p).base) % 29830 = p.delay := by
    change (c - p.issue) % 29830 = p.delay
    omega
  rw [clock, applyPending_due hp hc, immediate_due hp hc]
  cases hv : p.value.getLsbD 7 with
  | true => simp [schedule_fiveStep h (takeEffect_mode.trans (if_pos hv))]
  | false =>
    have halves_are_steps : [14913, 29829] ⊆ [7459, 14913, 22371, 29829] := by decide
    have hq : p.delay ∉ [7459, 14913, 22371, 29829] := by
      simp only [List.mem_cons, List.not_mem_nil, or_false]
      omega
    have hh : p.delay ∉ [14913, 29829] := fun hmem => hq (halves_are_steps hmem)
    have hi : p.delay ≠ 29829 := by omega
    have hm : (fs.takeEffect p).mode = .fourStep := takeEffect_mode.trans (if_neg (by rw [hv]; decide))
    rw [schedule_fourStep h hm, hrel, decide_eq_false hq, decide_eq_false hh, decide_eq_false hi]
    simp

/-- A pending write waits in every CLOCK in which it is not due. -/
theorem clock_pend_waits (hp : fs.pend = some p) (hc : c ≠ p.issue + p.delay) : (fs.clock cfg c).2.pend = some p := by
  rw [clock_pend, applyPending_waits hp hc, hp]

end FrameSeq

/-- A pending write waits through all the CLOCKs before the one in which it is due. -/
theorem clocks_pend_waits {s : State} {p : Pending} (hp : s.fs.pend = some p) (n : Nat)
    (hn : s.cyc + n ≤ p.issue + p.delay) : (s.clocks n).fs.pend = some p := by
  induction n with
  | zero => exact hp
  | succ n ih =>
    rw [clocks_succ, clock_fs]
    refine FrameSeq.clock_pend_waits (ih (by omega)) ?_
    rw [clocks_cyc]
    omega

/-- The CLOCK in which a pending write is due (R157, R158). -/
theorem clock_of_due {s : State} {p : Pending} (h : s.cfg.Source) (hp : s.fs.pend = some p)
    (hc : s.cyc = p.issue + p.delay) (hd : p.delay < 7459) :
    eventsOf s = ⟨p.value.getLsbD 7, p.value.getLsbD 7, false⟩ ∧ s.clock.fs = s.fs.takeEffect p := by
  rw [eventsOf, clock_fs, FrameSeq.clock_due h hp hc hd]
  exact ⟨rfl, rfl⟩

/-- What W4017 leaves: the byte latched, and the write pending in place of an earlier one (R156, R159). -/
theorem execW4017_eq {s : State} (h : s.cfg.Source) (v : Byte) : execW4017 v s =
    answer ((s.latchWrite 0x17 v).withFs
      { s.fs with pend := some { value := v, issue := s.cyc, delay := if s.cyc % 2 = 1 then 3 else 4 } }) .nothing := by
  rw [execW4017, FrameSeq.write_eq, FrameSeq.writeDelay_eq h]

theorem WriteCompletes.of_fs {i : Instr} {offset : Nat} {v : Byte} {s : State} {R : State → Prop} {f : FrameSeq}
    (hw : s.shadow.wf = true) (h : exec i s = answer ((s.latchWrite offset v).withFs f) .nothing)
    (hR : R (((s.latchWrite offset v).withFs f).withResponse .nothing)) : WriteCompletes i offset v [.fs] s R :=
  .of_answer hw h rfl rfl ⟨rfl, rfl, rfl, rfl, rfl, rfl⟩ (by simp [SameUnitsExcept]) hR

/-! The status byte, from its highest bit down (R129, R375). -/

theorem statusByte_high (s : State) : bitSet s.statusByte 7 = s.dmc.irq ∧ bitSet s.statusByte 6 = s.fs.irq ∧
    bitSet s.statusByte 5 = false ∧ bitSet s.statusByte 4 = s.dmc.active := by
  simp only [bitSet_eq, State.statusByte, BitVec.getLsbD_append]
  simp

theorem statusByte_low (s : State) : bitSet s.statusByte 3 = decide (0 < s.noi.length.toNat) ∧
    bitSet s.statusByte 2 = decide (0 < s.tri.length.toNat) ∧
    bitSet s.statusByte 1 = decide (0 < s.p2.length.toNat) ∧ bitSet s.statusByte 0 = decide (0 < s.p1.length.toNat) := by
  simp only [bitSet_eq, State.statusByte, BitVec.getLsbD_append]
  simp [lengthActive]

end Sys2Proof.Machine

namespace Sys2Proof.Claims
open Sys2Proof.Machine

/-! The obligations. -/

/-- Settles O31: the write waits through the CLOCKs of its delay, and the next one loads it. -/
theorem frameWriteTakesEffectAfterItsDelay : Obligations.FrameWriteTakesEffectAfterItsDelay := by
  intro v s t u hcfg hx hu
  obtain rfl := answer_next_iff.mp ((execW4017_eq hcfg v).symm.trans hx)
  have hlt : (if s.cyc % 2 = 1 then 3 else 4) < 7459 := by split <;> decide
  generalize (if s.cyc % 2 = 1 then 3 else 4) = d at hu hlt ⊢
  have hp : u.fs.pend = some ⟨v, s.cyc, d⟩ := hu ▸ clocks_pend_waits rfl d le_rfl
  have hc : u.cyc = s.cyc + d := hu ▸ clocks_cyc _ d
  have hcfg' : u.cfg.Source := by rwa [hu, clocks_cfg]
  obtain ⟨hevents, hfs⟩ := clock_of_due hcfg' hp hc hlt
  rw [hevents, hfs, bitSet_eq, bitSet_eq]
  exact ⟨hp, rfl, rfl, rfl, rfl, rfl, rfl, rfl, rfl⟩

/-- Settles O29: where no write is due, a CLOCK's pulses are those of the schedule in force. -/
theorem scheduleFiresAtTheListedSteps : Obligations.ScheduleFiresAtTheListedSteps := by
  intro cfg fs c hcfg hdue
  have hwait : ∀ p ∈ fs.pend, c ≠ p.issue + p.delay := fun p hp hc => hdue ⟨p, hp, hc⟩
  rw [FrameSeq.clock_not_due hwait]
  refine ⟨rfl, fun hm => ?_, fun hm => ?_⟩
  · simp [FrameSeq.schedule_fourStep hcfg hm]
  · simp [FrameSeq.schedule_fiveStep hcfg hm]

/-- Settles O24: the write latches its byte and sets the pending slot of the frame sequencer. -/
theorem frameWriteIsRecordedOnly : Obligations.FrameWriteIsRecordedOnly := fun v _ hcfg hw =>
  .of_fs hw (execW4017_eq hcfg v) ⟨rfl, rfl, rfl, rfl, rfl⟩

/-- Settles O27: the read answers with the status byte of the state before, and clears the frame flag. -/
theorem statusReadReportsThenClears : Obligations.StatusReadReportsThenClears := by
  intro s
  obtain ⟨h7, h6, h5, h4⟩ := statusByte_high s
  obtain ⟨h3, h2, h1, h0⟩ := statusByte_low s
  exact ⟨_, s.statusByte, rfl, rfl, h7, h6, h5, h4, h3, h2, h1, h0, rfl, rfl, rfl, rfl, rfl, ⟨fun _ => rfl, rfl⟩,
    ⟨rfl, rfl, rfl, rfl, rfl, rfl⟩, by simp [SameUnitsExcept]⟩

end Sys2Proof.Claims
end

section
/-! PROOFS of the statements about the envelope and the sweep (41_envelope_sweep.md), with what a pulse's control write loads and
when a channel is silent: first the envelope's clock and its run from a restart, then when the sweep returns a period and which,
then each channel's output, then the seven obligations. -/
namespace Sys2Proof.Machine
open Sys2Proof.Claims

theorem eq_zero_iff_toNat {w : Nat} {x : BitVec w} : x = 0 ↔ x.toNat = 0 := by
  simp [← BitVec.toNat_inj]

/-! The pulse's control write (R113, R212). -/

theorem Pulse.writeControl_loads (p : Pulse) (v : Byte) : PulseControlLoaded v p (p.writeControl v) :=
  ⟨Operand.duty_toNat v, (bitSet_eq v 5).symm, (bitSet_eq v 5).symm, (bitSet_eq v 4).symm, Operand.vol_toNat v,
    rfl, rfl, rfl, rfl, rfl, rfl, rfl, rfl, rfl⟩

/-! Envelope (R183, R185). -/

namespace Env
variable {e f : Env}

/-- The clock clears the start flag and writes nothing else but the divider and the decay level. -/
theorem clock_frame (e : Env) : e.clock = { e with start := false, div := e.clock.div, decay := e.clock.decay } := by
  unfold clock
  split
  · rfl
  · rename_i h
    rw [← Bool.eq_false_of_not_eq_true h]
    split <;> rfl

@[simp] theorem clock_vol (e : Env) : e.clock.vol = e.vol := by rw [clock_frame]
@[simp] theorem clock_loop (e : Env) : e.clock.loop = e.loop := by rw [clock_frame]
@[simp] theorem clock_constVol (e : Env) : e.clock.constVol = e.constVol := by rw [clock_frame]
@[simp] theorem clock_start_eq_false (e : Env) : e.clock.start = false := by rw [clock_frame]

theorem nextDecay_toNat (e : Env) :
    e.nextDecay.toNat = if e.decay.toNat ≠ 0 then e.decay.toNat - 1 else if e.loop then 15 else 0 := by
  unfold nextDecay
  by_cases hd : e.decay = 0
  · rw [if_neg (not_not.mpr hd), if_neg (not_not.mpr (eq_zero_iff_toNat.mp hd))]
    cases e.loop <;> rfl
  · rw [if_pos hd, if_pos (mt eq_zero_iff_toNat.mpr hd), toNat_sub_one _ hd]

/-- The decay level after `q` periods from a restart: down to 0 and no further, or over again from 15 when looping. -/
def levelAfter (loop : Bool) (q : Nat) : Nat := if loop then 15 - q % 16 else 15 - q

/-- One period on, the level is the next decay's. -/
theorem nextDecay_levelAfter {q : Nat} (h : e.decay.toNat = levelAfter e.loop q) :
    e.nextDecay.toNat = levelAfter e.loop (q + 1) := by
  rw [nextDecay_toNat, h]
  cases e.loop <;> simp only [levelAfter, if_true, Bool.false_eq_true, if_false] <;> split <;> omega

/-- `f` is `e` as `k` clocks after the clock of its restart leave it: `q` periods of `vol + 1` clocks are over, and the divider
holds what is left of the current one. -/
def RunsFrom (e : Env) (k : Nat) (f : Env) : Prop :=
  f.start = false ∧ f.vol = e.vol ∧ f.loop = e.loop ∧ f.div.toNat ≤ e.vol.toNat ∧
    ∃ q, k + f.div.toNat = q * (e.vol.toNat + 1) + e.vol.toNat ∧ f.decay.toNat = levelAfter e.loop q

theorem runsFrom_restart (h : e.start = true) : e.RunsFrom 0 e.clock := by
  refine ⟨e.clock_start_eq_false, e.clock_vol, e.clock_loop, ?_, 0, ?_, ?_⟩ <;> rw [clock_start h]
  · simp
  · cases e.loop <;> rfl

theorem RunsFrom.clock {k : Nat} (h : e.RunsFrom k f) : e.RunsFrom (k + 1) f.clock := by
  obtain ⟨hstart, hvol, hloop, hdiv, q, hk, hdecay⟩ := h
  refine ⟨f.clock_start_eq_false, f.clock_vol.trans hvol, f.clock_loop.trans hloop, ?_⟩
  by_cases hd : f.div = 0
  · rw [clock_zero hstart hd]
    refine ⟨(congrArg BitVec.toNat hvol).le, q + 1, ?_, hloop ▸ nextDecay_levelAfter (hloop ▸ hdecay)⟩
    rw [eq_zero_iff_toNat.mp hd] at hk
    simp only [hvol, Nat.succ_mul]
    omega
  · have hpos : f.div.toNat ≠ 0 := mt eq_zero_iff_toNat.mpr hd
    rw [clock_count hstart hd]
    refine ⟨?_, q, ?_, hdecay⟩ <;> simp only [toNat_sub_one _ hd] <;> omega

theorem runsFrom_iterate_clock (h : e.start = true) (k : Nat) : e.RunsFrom k (Env.clock^[k + 1] e) := by
  induction k with
  | zero => exact runsFrom_restart h
  | succ k ih =>
    rw [Function.iterate_succ_apply']
    exact ih.clock

/-- The number of periods that are over is the quotient of the clocks by the period. -/
theorem RunsFrom.decay_toNat {k : Nat} (h : e.RunsFrom k f) :
    f.decay.toNat = levelAfter e.loop (k / (e.vol.toNat + 1)) := by
  obtain ⟨-, -, -, hdiv, q, hk, hdecay⟩ := h
  have hq : k / (e.vol.toNat + 1) = q :=
    Nat.div_eq_of_lt_le (by omega) (by rw [Nat.succ_mul]; omega)
  rw [hq, hdecay]

end Env

/-! Sweep (R192 to R195): the conditions and the target as numbers. -/

namespace Sweep
variable {sw : Sweep} {cfg : Cfg} {extra : Nat} {cur : BitVec 11}

theorem not_isMuting_iff (h : cfg.Source) : sw.isMuting cfg cur = false ↔
    8 ≤ cur.toNat ∧ (sw.negate = true ∨ cur.toNat + cur.toNat / 2 ^ sw.shift.toNat ≤ 0x7FF) := by
  rw [← Bool.not_eq_true, isMuting_iff h, not_or, not_and_or, Bool.not_eq_false, not_lt, not_lt]

theorem returns_iff_toNat (h : cfg.Source) : sw.returns cfg cur = true ↔
    sw.div.toNat = 0 ∧ sw.enable = true ∧ sw.shift.toNat ≠ 0 ∧ 8 ≤ cur.toNat ∧
      (sw.negate = true ∨ cur.toNat + cur.toNat / 2 ^ sw.shift.toNat ≤ 0x7FF) := by
  rw [returns_iff, not_isMuting_iff h, eq_zero_iff_toNat, ne_eq sw.shift, eq_zero_iff_toNat]

theorem clock_fst_ne_none_iff : (sw.clock cfg extra cur).1 ≠ none ↔ sw.returns cfg cur = true := by
  rw [ne_eq, clock_fst_none, Bool.not_eq_false]

theorem exists_clock_fst (hc : cfg.Source) (h : sw.returns cfg cur = true) (extra : Nat) :
    ∃ p, (sw.clock cfg extra cur).1 = some p ∧ p.toNat = sw.target extra cur := by
  obtain ⟨p, hp⟩ := Option.ne_none_iff_exists'.mp (clock_fst_ne_none_iff.mpr h)
  exact ⟨p, hp, ((clock_fst_some hc).mp hp).2⟩

/-- From a period of 2 on, half of it and the channel's extra do not exceed it: the subtraction of a negated target is exact. -/
theorem target_negate_add (hn : sw.negate = true) (hs : sw.shift ≠ 0) (he : extra ≤ 1) (hcur : 2 ≤ cur.toNat) :
    sw.target extra cur + extra + cur.toNat / 2 ^ sw.shift.toNat = cur.toNat := by
  have hhalf := half_le (cur := cur) hs
  rw [target_negate hn]
  omega

theorem tick_reloads (h : sw.div = 0 ∨ sw.reload = true) : sw.tick = { sw with div := sw.period, reload := false } :=
  if_pos h

theorem tick_counts (hd : sw.div ≠ 0) (hr : sw.reload = false) : sw.tick = { sw with div := sw.div - 1 } :=
  if_neg (not_or.mpr ⟨hd, by simp [hr]⟩)

/-- The clock leaves the reload flag clear and writes nothing else but the divider. -/
theorem tick_frame (sw : Sweep) : sw.tick = { sw with div := sw.tick.div, reload := false } := by
  unfold tick
  split
  · rfl
  · rename_i h
    rw [← Bool.eq_false_of_not_eq_true (not_or.mp h).2]

end Sweep

/-! The channels' outputs (R223, R249, R268). -/

/-- Position 0 of a duty pattern is its leftmost bit (R211). -/
theorem Operand.dutyBit_iff (cfg : Cfg) (duty : BitVec 2) (pos : BitVec 3) : dutyBit cfg duty pos = true ↔
    (cfg.dutyTable[duty.toNat]'duty.isLt).toNat / 2 ^ (7 - pos.toNat) % 2 = 1 := by
  have hpos : pos.toNat < 8 := pos.isLt
  rw [dutyBit, BitVec.getMsbD, BitVec.getLsbD, Nat.testBit_eq_decide_div_mod_eq]
  simp [hpos]

/-- D0's sequence runs 15 to 0 and 0 to 15 (R241). -/
theorem triSeq_literal_toNat : ∀ pos : BitVec 5, (Config.literals.triSeq[pos.toNat]'pos.isLt).toNat =
    if pos.toNat ≤ 15 then 15 - pos.toNat else pos.toNat - 16 := by decide

theorem Operand.triLevel_toNat {cfg : Cfg} (h : cfg.Source) (pos : BitVec 5) :
    (triLevel cfg pos).toNat = if pos.toNat ≤ 15 then 15 - pos.toNat else pos.toNat - 16 := by
  simp only [triLevel, h.triSeq]
  exact triSeq_literal_toNat pos

namespace Pulse
variable {p : Pulse} {cfg : Cfg}

theorem output_silent (h : p.enabled = false ∨ p.length.toNat = 0 ∨ p.sweep.isMuting cfg p.period = true) :
    p.output cfg = 0 := by
  rw [← eq_zero_iff_toNat] at h
  unfold output
  obtain h | h | h := h <;> simp [h]

/-- An enabled channel that is neither out of length nor muted shows its envelope at the duty pattern's ones. The output's own
test for a short period decides nothing further: the sweep's muting covers it. -/
theorem output_sounds (hc : cfg.Source) (he : p.enabled = true) (hl : p.length.toNat ≠ 0)
    (hm : p.sweep.isMuting cfg p.period = false) :
    p.output cfg = if Operand.dutyBit cfg p.duty p.pos then p.env.output else 0 := by
  have hperiod : ¬ p.period.toNat < cfg.sweepMuteLow := by
    rw [hc.sweepMuteLow]
    exact not_lt.mpr ((Sweep.not_isMuting_iff hc).mp hm).1
  rw [ne_eq, ← eq_zero_iff_toNat] at hl
  cases hd : Operand.dutyBit cfg p.duty p.pos <;> simp only [output, he, hl, hm, hd, hperiod] <;> rfl

end Pulse

namespace Triangle
variable {t : Triangle} {cfg : Cfg}

theorem output_silent (hc : cfg.Source)
    (h : t.enabled = false ∨ t.length.toNat = 0 ∨ t.linear.toNat = 0 ∨ t.period.toNat < 2) : t.output cfg = 0 := by
  rw [← eq_zero_iff_toNat, ← eq_zero_iff_toNat, ← hc.triMuteLow] at h
  unfold output
  obtain h | h | h | h := h <;> simp [h]

theorem output_sounds (hc : cfg.Source) (he : t.enabled = true) (hlen : t.length.toNat ≠ 0) (hlin : t.linear.toNat ≠ 0)
    (hp : 2 ≤ t.period.toNat) : t.output cfg = Operand.triLevel cfg t.pos := by
  rw [ne_eq, ← eq_zero_iff_toNat] at hlen hlin
  rw [← not_lt, ← hc.triMuteLow] at hp
  simp only [output, he, hlen, hlin, hp, Bool.not_true, Bool.false_eq_true, if_false]

end Triangle

namespace Noise
variable {n : Noise}

theorem lfsr_bit_zero (n : Noise) : n.lfsr.getLsbD 0 = decide (n.lfsr.toNat % 2 = 1) := Nat.testBit_zero _

theorem output_silent (h : n.enabled = false ∨ n.length.toNat = 0 ∨ n.lfsr.toNat % 2 = 1) : n.output = 0 := by
  rw [← eq_zero_iff_toNat] at h
  unfold output
  obtain h | h | h := h <;> simp [lfsr_bit_zero, h]

theorem output_sounds (he : n.enabled = true) (hl : n.length.toNat ≠ 0) (hb : n.lfsr.toNat % 2 = 0) :
    n.output = n.env.output := by
  rw [ne_eq, ← eq_zero_iff_toNat] at hl
  have hbit : n.lfsr.getLsbD 0 = false := by rw [lfsr_bit_zero, hb]; rfl
  simp only [output, he, hl, hbit, Bool.not_true, Bool.false_eq_true, if_false]

end Noise
end Sys2Proof.Machine

namespace Sys2Proof.Claims
open Sys2Proof.Machine

/-! The obligations. -/

/-- Settles O15, from what the write loads into either channel. -/
theorem pulseControlWriteLoadsItsFields : Obligations.PulseControlWriteLoadsItsFields := fun v s hw =>
  ⟨.of_p1 hw rfl (s.p1.writeControl_loads v), .of_p2 hw rfl (s.p2.writeControl_loads v)⟩

/-- Settles O35, by the three cases of the clock. -/
theorem envelopeClockRestartsCountsAndDecays : Obligations.EnvelopeClockRestartsCountsAndDecays := by
  refine fun e => ⟨e.clock_vol, e.clock_loop, e.clock_constVol, e.clock_start_eq_false, fun hs => ?_, fun hs hd => ?_,
    fun hs hd => ?_⟩
  · rw [Env.clock_start hs]
    exact ⟨rfl, rfl⟩
  · have hd : e.div ≠ 0 := mt eq_zero_iff_toNat.mp hd
    rw [Env.clock_count hs hd]
    exact ⟨toNat_sub_one _ hd, rfl⟩
  · rw [Env.clock_zero hs (eq_zero_iff_toNat.mpr hd)]
    exact ⟨rfl, e.nextDecay_toNat⟩

/-- Settles O36, by induction on the clocks since the restart. -/
theorem envelopeDecaysOneLevelPerPeriod : Obligations.EnvelopeDecaysOneLevelPerPeriod := by
  intro e k hs
  have hdecay := (Env.runsFrom_iterate_clock hs k).decay_toNat
  refine ⟨fun hl => ?_, fun hl => ?_⟩ <;> rw [hdecay, hl] <;> rfl

/-- Settles O37: a period returned is the target, and where one is returned the target's subtraction is exact. -/
theorem sweepReturnsTheExactTarget : Obligations.SweepReturnsTheExactTarget := by
  intro cfg sw extra cur p hc he hp
  obtain ⟨hreturns, htarget⟩ := (Sweep.clock_fst_some hc).mp hp
  obtain ⟨-, -, hshift, hmute⟩ := Sweep.returns_iff.mp hreturns
  obtain ⟨hcur, -⟩ := (Sweep.not_isMuting_iff hc).mp hmute
  rw [htarget]
  exact ⟨hcur, Sweep.target_add, fun hn => Sweep.target_negate_add hn hshift he (by omega)⟩

/-- Settles O38: the returned period by the condition for one, the divider by the two cases of its clock. -/
theorem sweepClockServicesItsDivider : Obligations.SweepClockServicesItsDivider := by
  intro cfg sw extra cur hc
  rw [Sweep.clock_snd]
  refine ⟨Sweep.clock_fst_ne_none_iff.trans (Sweep.returns_iff_toNat hc), by rw [sw.tick_frame], fun h => ?_,
    fun ⟨hd, hr⟩ => ?_, by rw [sw.tick_frame], by rw [sw.tick_frame], by rw [sw.tick_frame], by rw [sw.tick_frame]⟩
  · rw [Sweep.tick_reloads (h.imp_left eq_zero_iff_toNat.mpr)]
  · have hd' : sw.div ≠ 0 := mt eq_zero_iff_toNat.mp hd
    rw [Sweep.tick_counts hd' hr]
    simp only [toNat_sub_one _ hd']
    omega

/-- Settles O39: both units return their exact targets, which the extra alone tells apart. -/
theorem sweepPolarityDivergesByOne : Obligations.SweepPolarityDivergesByOne := by
  intro cfg hc
  have hreturns : (Sweep.reset.setRegister 0x89).returns cfg 100 = true := (Sweep.returns_iff_toNat hc).mpr (by decide)
  refine ⟨fun sw v cur hd he hn hs hcur => ?_, (Sweep.clock_fst_some hc).mpr ⟨hreturns, by decide⟩,
    (Sweep.clock_fst_some hc).mpr ⟨hreturns, by decide⟩⟩
  rw [bitSet_eq] at he hn
  rw [← Operand.sweepShift_toNat] at hs
  have hshift : (sw.setRegister v).shift ≠ 0 := mt eq_zero_iff_toNat.mp hs
  have hreturns : (sw.setRegister v).returns cfg cur = true :=
    (Sweep.returns_iff_toNat hc).mpr ⟨eq_zero_iff_toNat.mp hd, he, hs, hcur, .inl hn⟩
  have hexact (extra : Nat) (hextra : extra ≤ 1) :=
    Sweep.target_negate_add (sw := sw.setRegister v) (extra := extra) (cur := cur) hn hshift hextra (by omega)
  obtain ⟨a, ha, hta⟩ := Sweep.exists_clock_fst hc hreturns (Config.sweepExtra .one)
  obtain ⟨b, hb, htb⟩ := Sweep.exists_clock_fst hc hreturns (Config.sweepExtra .two)
  refine ⟨a, b, ha, hb, ?_⟩
  have h1 := hexact 0 (by decide)
  have h2 := hexact 1 (by decide)
  rw [hta, htb, Config.sweepExtra, Config.sweepExtra]
  omega

/-- Settles O42, channel by channel: the silent cases, then the sounding one. -/
theorem channelsAreSilentWhenMuted : Obligations.ChannelsAreSilentWhenMuted := by
  intro cfg hc
  refine ⟨fun p h => ?_, fun p he hl hp ht => ?_, fun t => Triangle.output_silent hc, fun t he hlen hlin hp => ?_,
    fun n => Noise.output_silent, fun n => Noise.output_sounds⟩
  · rw [← Sweep.isMuting_iff hc] at h
    exact Pulse.output_silent h
  · refine ⟨cfg.dutyTable[p.duty.toNat]'p.duty.isLt, by simp, ?_⟩
    rw [Pulse.output_sounds hc he hl ((Sweep.not_isMuting_iff hc).mpr ⟨hp, ht⟩), ← Env.output]
    simp only [Operand.dutyBit_iff]
  · rw [Triangle.output_sounds hc he hlen hlin hp, Operand.triLevel_toNat hc]

end Sys2Proof.Claims
end

section
/-! PROOFS of the statements about the pulse channels (42_pulse.md), with the timers of every channel: first what the write of the
timer's high bits loads, then what a CLOCK does to each timer, then the period of a channel's phase, then the three obligations. -/
namespace Sys2Proof.Machine
open Sys2Proof.Claims

/-! The write of the timer's high bits (R116, R215). -/

theorem Pulse.writeTimerHigh_loads (p : Pulse) (cfg : Cfg) (v : Byte) :
    PulseTimerHighLoaded cfg v p (p.writeTimerHigh cfg v) :=
  ⟨lengthLoaded_loadedLength cfg v p.enabled p.length, Operand.periodHigh_toNat p.period v, rfl, rfl,
    rfl, rfl, rfl, rfl, rfl, rfl, rfl, rfl, rfl, rfl⟩

/-! One tick of a timer (R221, R248, R266; D6). -/

theorem toNat_sub_one_add_one {w : Nat} {x : BitVec w} (h : x ≠ 0) : (x - 1).toNat + 1 = x.toNat := by
  have hx : x.toNat ≠ 0 := mt eq_zero_iff_toNat.mpr h
  rw [toNat_sub_one x h]
  omega

theorem Pulse.clockTimer_reloads {p : Pulse} (h : p.timer = 0) :
    p.clockTimer.timer = p.clockTimer.period ∧ p.clockTimer.pos.toNat = (p.pos.toNat + 1) % 8 := by
  rw [clockTimer_zero h]
  exact ⟨rfl, BitVec.toNat_add p.pos 1⟩

theorem Pulse.clockTimer_counts {p : Pulse} (h : p.timer ≠ 0) :
    p.clockTimer.timer.toNat + 1 = p.timer.toNat ∧ p.clockTimer.pos = p.pos := by
  rw [clockTimer_count h]
  exact ⟨toNat_sub_one_add_one h, rfl⟩

theorem Triangle.clockTimer_reloads {t : Triangle} (h : t.timer = 0) : t.clockTimer.timer = t.period ∧
    t.clockTimer.pos.toNat =
      (t.pos.toNat + (if t.clockTimer.linear ≠ 0 ∧ t.clockTimer.length ≠ 0 then 1 else 0)) % 32 := by
  rw [clockTimer_zero h]
  refine ⟨rfl, ?_⟩
  by_cases hrun : t.linear ≠ 0 ∧ t.length ≠ 0
  · simp only [if_pos hrun]
    exact BitVec.toNat_add t.pos 1
  · simp only [if_neg hrun]
    exact (Nat.mod_eq_of_lt t.pos.isLt).symm

theorem Triangle.clockTimer_counts {t : Triangle} (h : t.timer ≠ 0) :
    t.clockTimer.timer.toNat + 1 = t.timer.toNat ∧ t.clockTimer.pos = t.pos := by
  rw [clockTimer_count h]
  exact ⟨toNat_sub_one_add_one h, rfl⟩

theorem Noise.clockTimer_reloads {n : Noise} (cfg : Cfg) (h : n.timer = 0) :
    cfg.noisePeriod.toList[n.periodIdx.toNat]? = some (n.clockTimer cfg).timer ∧ (n.clockTimer cfg).lfsr = n.shifted := by
  rw [clockTimer_zero h]
  exact ⟨by simp [Operand.noiseReload], rfl⟩

theorem Noise.clockTimer_counts {n : Noise} (cfg : Cfg) (h : n.timer ≠ 0) :
    (n.clockTimer cfg).timer.toNat + 1 = n.timer.toNat ∧ (n.clockTimer cfg).lfsr = n.lfsr := by
  rw [clockTimer_count h]
  exact ⟨toNat_sub_one_add_one h, rfl⟩

/-! The frame events of a CLOCK, which come before its timers (R379), leave every timer and sequencer. -/

section
variable (s : State)

theorem withResponse_pulse (r : Response) (id : PulseId) : (s.withResponse r).pulse id = s.pulse id := rfl

theorem clockFrame_pulse_phase (id : PulseId) : (s.clockFrame.pulse id).timer = (s.pulse id).timer ∧
    (s.clockFrame.pulse id).pos = (s.pulse id).pos := by
  cases id with
  | one =>
    rw [pulse_one, clockFrame_p1, frameEvents_p1]
    split <;> split <;> exact ⟨rfl, rfl⟩
  | two =>
    rw [pulse_two, clockFrame_p2, frameEvents_p2]
    split <;> split <;> exact ⟨rfl, rfl⟩

theorem clockFrame_tri_phase : s.clockFrame.tri.timer = s.tri.timer ∧ s.clockFrame.tri.pos = s.tri.pos ∧
    s.clockFrame.tri.period = s.tri.period := by
  rw [clockFrame_tri, frameEvents_tri, Triangle.clockLinearCounter_frame]
  split <;> split <;> exact ⟨rfl, rfl, rfl⟩

/-- The shift register is `clockFrame_lfsr`; its feedback tap is chosen by the mode, which stays as well. -/
theorem clockFrame_noi_phase : s.clockFrame.noi.timer = s.noi.timer ∧ s.clockFrame.noi.periodIdx = s.noi.periodIdx ∧
    s.clockFrame.noi.shifted = s.noi.shifted := by
  rw [clockFrame_noi, frameEvents_noi]
  split <;> split <;> exact ⟨rfl, rfl, rfl⟩

theorem clock_pulse (id : PulseId) : s.clock.pulse id =
    if s.timerRuns s.cfg.apuDomain.pulse then (s.clockFrame.pulse id).clockTimer else s.clockFrame.pulse id := by
  cases id with
  | one => exact clock_p1 s
  | two => exact clock_p2 s

variable {s}

theorem clock_pulse_of_ticks (h : Ticks s s.cfg.apuDomain.pulse) (id : PulseId) :
    s.clock.pulse id = (s.clockFrame.pulse id).clockTimer := by
  rw [clock_pulse, if_pos ((timerRuns_iff ..).mpr h)]

theorem clock_noi_of_ticks (h : Ticks s s.cfg.apuDomain.noise) : s.clock.noi = s.clockFrame.noi.clockTimer s.cfg := by
  rw [clock_noi, if_pos ((timerRuns_iff ..).mpr h)]
end

/-! The phase of a channel, its timer and its sequencer's position: the period it repeats with (R221, R248; D6). -/

section
variable {w : Nat} {period : BitVec 11}

/-- One tick of a timer that reloads from `period`, and of the sequencer of `2 ^ w` positions behind it. -/
def tickPhase (period : BitVec 11) (x : BitVec 11 × BitVec w) : BitVec 11 × BitVec w :=
  if x.1 = 0 then (period, x.2 + 1) else (x.1 - 1, x.2)

theorem tickPhase_zero (pos : BitVec w) : tickPhase period (0, pos) = (period, pos + 1) := rfl

theorem tickPhase_succ {n : Nat} (hn : n + 1 < 2 ^ 11) (pos : BitVec w) :
    tickPhase period (BitVec.ofNat 11 (n + 1), pos) = (BitVec.ofNat 11 n, pos) := by
  have hne : BitVec.ofNat 11 (n + 1) ≠ 0 := by
    rw [ne_eq, eq_zero_iff_toNat, BitVec.toNat_ofNat]
    omega
  rw [tickPhase, if_neg hne, BitVec.ofNat_add]
  exact congrArg (·, pos) (BitVec.add_sub_cancel _ _)

/-- A timer counts down, its sequencer waiting. -/
theorem iterate_tickPhase_counts (n k : Nat) (h : n + k < 2 ^ 11) (pos : BitVec w) :
    (tickPhase period)^[k] (BitVec.ofNat 11 (n + k), pos) = (BitVec.ofNat 11 n, pos) := by
  induction k with
  | zero => rfl
  | succ k ih =>
    rw [Function.iterate_succ_apply, ← Nat.add_assoc, tickPhase_succ (by omega), ih (by omega)]

/-- After `period + 1` ticks the timer is where it was and the position is the next one: the timer counts down to 0, reloads, and
counts down from the period. -/
theorem iterate_tickPhase_period {timer : BitVec 11} (h : timer.toNat ≤ period.toNat) (pos : BitVec w) :
    (tickPhase period)^[period.toNat + 1] (timer, pos) = (timer, pos + 1) := by
  have hlt := period.isLt
  have hdown : (tickPhase period)^[timer.toNat] (timer, pos) = (0, pos) := by
    simpa using iterate_tickPhase_counts (period := period) 0 timer.toNat (by omega) pos
  have hrest (q : BitVec w) : (tickPhase period)^[period.toNat - timer.toNat] (period, q) = (timer, q) := by
    simpa [Nat.add_sub_cancel' h] using
      iterate_tickPhase_counts (period := period) timer.toNat (period.toNat - timer.toNat) (by omega) q
  calc (tickPhase period)^[period.toNat + 1] (timer, pos)
      = (tickPhase period)^[period.toNat - timer.toNat + 1 + timer.toNat] (timer, pos) := by
        rw [show period.toNat - timer.toNat + 1 + timer.toNat = period.toNat + 1 by omega]
    _ = (timer, pos + 1) := by
        rw [Function.iterate_add_apply, hdown, Function.iterate_succ_apply, tickPhase_zero, hrest]

theorem iterate_tickPhase_periods {timer : BitVec 11} (h : timer.toNat ≤ period.toNat) (pos : BitVec w) (n : Nat) :
    (tickPhase period)^[n * (period.toNat + 1)] (timer, pos) = (timer, pos + BitVec.ofNat w n) := by
  induction n with
  | zero => simp
  | succ n ih =>
    rw [Nat.succ_mul, Nat.add_comm, Function.iterate_add_apply, ih, iterate_tickPhase_period h, BitVec.ofNat_add,
      BitVec.add_assoc]
    rfl

/-- After as many periods as the sequencer has positions, the phase is back. -/
theorem iterate_tickPhase_waveform {timer : BitVec 11} (h : timer.toNat ≤ period.toNat) (pos : BitVec w) :
    (tickPhase period)^[2 ^ w * (period.toNat + 1)] (timer, pos) = (timer, pos) := by
  have hturn : BitVec.ofNat w (2 ^ w) = 0 :=
    eq_zero_iff_toNat.mpr ((BitVec.toNat_ofNat _ _).trans (Nat.mod_self _))
  rw [iterate_tickPhase_periods h, hturn]
  exact congrArg (timer, ·) (BitVec.add_zero pos)
end

/-- The channel at another phase. -/
def Pulse.withPhase (p : Pulse) (x : BitVec 11 × BitVec 3) : Pulse := { p with timer := x.1, pos := x.2 }

/-- The channel at another phase. -/
def Triangle.withPhase (t : Triangle) (x : BitVec 11 × BitVec 5) : Triangle := { t with timer := x.1, pos := x.2 }

/-- A pulse's timer clock ticks its phase. -/
theorem Pulse.withPhase_semiconj (p : Pulse) : Function.Semiconj p.withPhase (tickPhase p.period) clockTimer := by
  intro x
  by_cases hx : x.1 = 0
  · rw [clockTimer_zero (p := p.withPhase x) hx, tickPhase, if_pos hx]
    rfl
  · rw [clockTimer_count (p := p.withPhase x) hx, tickPhase, if_neg hx]
    rfl

/-- A triangle's timer clock ticks its phase while neither counter is 0. -/
theorem Triangle.withPhase_semiconj {t : Triangle} (hlin : t.linear ≠ 0) (hlen : t.length ≠ 0) :
    Function.Semiconj t.withPhase (tickPhase t.period) clockTimer := by
  intro x
  by_cases hx : x.1 = 0
  · rw [clockTimer_zero (t := t.withPhase x) hx, tickPhase, if_pos hx,
      if_pos (show (t.withPhase x).linear ≠ 0 ∧ (t.withPhase x).length ≠ 0 from ⟨hlin, hlen⟩)]
    rfl
  · rw [clockTimer_count (t := t.withPhase x) hx, tickPhase, if_neg hx]
    rfl

end Sys2Proof.Machine

namespace Sys2Proof.Claims
open Sys2Proof.Machine

/-! The obligations. -/

/-- Settles O18, from what the write loads into either channel. -/
theorem pulseTimerHighWriteRestartsTheChannel : Obligations.PulseTimerHighWriteRestartsTheChannel := fun v s hw =>
  ⟨.of_p1 hw rfl (s.p1.writeTimerHigh_loads s.cfg v), .of_p2 hw rfl (s.p2.writeTimerHigh_loads s.cfg v)⟩

/-- Settles O34, timer by timer: the frame events leave the phase a timer's clock starts from. -/
theorem clockTicksTheTimers : Obligations.ClockTicksTheTimers := by
  intro s t h
  obtain rfl := answer_next_iff.mp h
  obtain ⟨htri, htripos, htriperiod⟩ := clockFrame_tri_phase s
  obtain ⟨hnoi, hnoiidx, hnoishift⟩ := clockFrame_noi_phase s
  refine ⟨fun h0 => ?_, fun h0 => ?_, fun id => ?_, fun hticks h0 => ?_, fun hticks h0 => ?_, fun hticks => ?_,
    fun hticks => ?_, fun hticks => ?_⟩
  · have hclock := Triangle.clockTimer_reloads (htri.trans h0)
    rwa [← clock_tri, htripos, htriperiod] at hclock
  · have hclock := Triangle.clockTimer_counts (t := s.clockFrame.tri) (htri ▸ h0)
    rwa [← clock_tri, htri, htripos] at hclock
  · obtain ⟨hpulse, hpulsepos⟩ := clockFrame_pulse_phase s id
    rw [withResponse_pulse]
    refine ⟨fun hticks h0 => ?_, fun hticks h0 => ?_, fun hticks => ?_⟩
    · have hclock := Pulse.clockTimer_reloads (hpulse.trans h0)
      rwa [← clock_pulse_of_ticks hticks, hpulsepos] at hclock
    · have hclock := Pulse.clockTimer_counts (p := s.clockFrame.pulse id) (hpulse ▸ h0)
      rwa [← clock_pulse_of_ticks hticks, hpulse, hpulsepos] at hclock
    · rw [clock_pulse, if_neg (mt (timerRuns_iff ..).mp hticks)]
      exact ⟨hpulse, hpulsepos⟩
  · have hclock := Noise.clockTimer_reloads s.cfg (hnoi.trans h0)
    rwa [← clock_noi_of_ticks hticks, hnoiidx, hnoishift] at hclock
  · have hclock := Noise.clockTimer_counts s.cfg (n := s.clockFrame.noi) (hnoi ▸ h0)
    rwa [← clock_noi_of_ticks hticks, hnoi, clockFrame_lfsr] at hclock
  · rw [State.withResponse_noi, clock_noi, if_neg (mt (timerRuns_iff ..).mp hticks)]
    exact ⟨hnoi, clockFrame_lfsr s⟩
  · exact (clock_dmc s).trans (if_pos ((timerRuns_iff ..).mpr hticks))
  · exact (clock_dmc s).trans (if_neg (mt (timerRuns_iff ..).mp hticks))

/-- Settles O41: a channel's timer clock ticks its phase, which is back after a period for each position. -/
theorem waveformsRepeat : Obligations.WaveformsRepeat := by
  refine ⟨fun p h => ?_, fun t h hlin hlen => ?_⟩
  · have hticks := p.withPhase_semiconj.iterate_right (8 * (p.period.toNat + 1)) (p.timer, p.pos)
    exact hticks.symm.trans (congrArg p.withPhase (iterate_tickPhase_waveform h p.pos))
  · have hticks := (Triangle.withPhase_semiconj hlin hlen).iterate_right (32 * (t.period.toNat + 1)) (t.timer, t.pos)
    exact hticks.symm.trans (congrArg t.withPhase (iterate_tickPhase_waveform h t.pos))

end Sys2Proof.Claims
end

section
/-! PROOFS of the statements about the triangle channel (43_triangle.md): first the cases of the linear counter's clock, then what a
CLOCK leaves of the counter and its reload flag, then the obligation. -/
namespace Sys2Proof.Machine
open Sys2Proof.Claims

/-! The linear counter's clock (R246): it reloads, rests at 0, or counts down. -/

namespace Triangle
variable {t : Triangle}

theorem clockLinearCounter_reload (h : t.linReload = true) :
    t.clockLinearCounter = { t with linear := t.linReloadVal, linReload := t.control } := if_pos h

theorem clockLinearCounter_zero (h : t.linReload = false) (h0 : t.linear = 0) : t.clockLinearCounter = t := by
  simp only [clockLinearCounter, h, h0, Bool.false_eq_true, if_false, if_true]

theorem clockLinearCounter_count (h : t.linReload = false) (h0 : t.linear ≠ 0) :
    t.clockLinearCounter = { t with linear := t.linear - 1 } := by
  simp only [clockLinearCounter, h, h0, Bool.false_eq_true, if_false]

/-- Without a reload the counter goes down by 1, floored at 0, and the flag stays clear. -/
theorem clockLinearCounter_counts (h : t.linReload = false) :
    t.clockLinearCounter.linear.toNat = t.linear.toNat - 1 ∧ t.clockLinearCounter.linReload = false := by
  by_cases h0 : t.linear = 0
  · rw [clockLinearCounter_zero h h0, h0]
    exact ⟨rfl, h⟩
  · rw [clockLinearCounter_count h h0]
    exact ⟨toNat_sub_one _ h0, h⟩

end Triangle

/-! A CLOCK (R378 to R382): of its parts only the quarter-frame touches the linear counter. -/

section
variable (s : State)

/-- The triangle's part of a half-frame clocks the length counter, which leaves the linear counter. -/
theorem clockFrame_tri_linear : s.clockFrame.tri.linear =
      (if (eventsOf s).quarter then s.tri.clockLinearCounter else s.tri).linear ∧
    s.clockFrame.tri.linReload = (if (eventsOf s).quarter then s.tri.clockLinearCounter else s.tri).linReload := by
  rw [clockFrame_tri, frameEvents_tri, ← eventsOf]
  split <;> exact ⟨rfl, rfl⟩

theorem clock_tri_linear : s.clock.tri.linear =
      (if (eventsOf s).quarter then s.tri.clockLinearCounter else s.tri).linear ∧
    s.clock.tri.linReload = (if (eventsOf s).quarter then s.tri.clockLinearCounter else s.tri).linReload := by
  rw [clock_tri, Triangle.clockTimer_frame]
  exact clockFrame_tri_linear s

end
end Sys2Proof.Machine

namespace Sys2Proof.Claims
open Sys2Proof.Machine

/-- Settles O40: the cases of the linear counter's clock, and the one part of a CLOCK that runs it. -/
theorem linearCounterReloadsOrCountsDown : Obligations.LinearCounterReloadsOrCountsDown := by
  refine ⟨fun t => ⟨fun h => ?_, Triangle.clockLinearCounter_counts, t.clockLinearCounter_frame⟩, fun s t h => ?_⟩
  · rw [Triangle.clockLinearCounter_reload h]
    exact ⟨rfl, rfl⟩
  · obtain rfl := answer_next_iff.mp h
    have hclock := clock_tri_linear s
    refine ⟨fun hq => ?_, fun hq => ?_⟩ <;> rwa [hq] at hclock

end Sys2Proof.Claims
end

section
/-! PROOF of the statement about the noise register (44_noise.md, R266): the shift is one append, so its value is the halved
register plus the feedback times `2 ^ 14`, and the feedback is the parity of the register plus the register moved down to its tap. -/
namespace Sys2Proof.Machine

theorem bool_xor_toNat : ∀ a b : Bool, (xor a b).toNat = (a.toNat + b.toNat) % 2 := by decide

/-- The exclusive or of a register's bits 0 and `k` is the parity of the register plus the register moved down by `k`. -/
theorem xor_bits_toNat {w : Nat} (x : BitVec w) (k : Nat) :
    (xor (x.getLsbD 0) (x.getLsbD k)).toNat = (x.toNat + x.toNat / 2 ^ k) % 2 := by
  have hbit : ∀ i, (x.getLsbD i).toNat = x.toNat / 2 ^ i % 2 := Nat.toNat_testBit x.toNat
  rw [bool_xor_toNat, hbit, hbit, pow_zero, Nat.div_one, ← Nat.add_mod]

namespace Noise

/-- The tap that goes into the feedback beside bit 0: bit 6 in short mode, bit 1 in long mode. -/
theorem feedback_eq_tap (n : Noise) :
    n.feedback = xor (n.lfsr.getLsbD 0) (n.lfsr.getLsbD (if n.mode then 6 else 1)) := by
  rw [feedback, apply_ite n.lfsr.getLsbD]

theorem feedback_toNat (n : Noise) :
    n.feedback.toNat = (n.lfsr.toNat + n.lfsr.toNat / 2 ^ (if n.mode then 6 else 1)) % 2 := by
  rw [feedback_eq_tap, xor_bits_toNat]

/-- The shift as a number: the register halved, and the feedback as the bit of weight `2 ^ 14`. -/
theorem shifted_toNat (n : Noise) : n.shifted.toNat = n.lfsr.toNat / 2 + n.feedback.toNat * 2 ^ 14 := by
  have hlow : (n.lfsr.extractLsb' 1 14).toNat = n.lfsr.toNat / 2 := by
    rw [BitVec.extractLsb'_toNat, Nat.shiftRight_one, Nat.mod_eq_of_lt (by omega)]
  rw [shifted, BitVec.toNat_append, ← Nat.shiftLeft_add_eq_or_of_lt (BitVec.isLt _), hlow, BitVec.toNat_ofBool,
    Nat.shiftLeft_eq, Nat.add_comm]

end Noise
end Sys2Proof.Machine

namespace Sys2Proof.Claims
open Sys2Proof.Machine

/-- Settles O43: the shift's value from the feedback's, and the invariant's lemma that no shift reaches 0 (R39 (a)). -/
theorem noiseShiftFeedsBackAndNeverZeroes : Obligations.NoiseShiftFeedsBackAndNeverZeroes := fun n =>
  ⟨by rw [Noise.shifted_toNat, Noise.feedback_toNat], Noise.shifted_ne_zero⟩

end Sys2Proof.Claims
end

section
/-! PROOFS of the statements about the DMC (45_dmc.md): first the two cases of its start, then the cases of its clock and the
level a delta bit leaves, then the three ends of a byte's delivery and what all three give, then the three obligations. -/
namespace Sys2Proof.Machine

namespace Dmc
variable {d : Dmc} {cfg : Cfg} {b : Byte}

/-! The start (R286). -/

theorem start_idle (h : d.bytes = 0) : d.start cfg = { d.loadSample cfg with active := true } := if_pos h

theorem start_playing (h : d.bytes ≠ 0) : d.start cfg = d := if_neg h

/-- Starting does not look at the interrupt flag, and keeps it. -/
theorem start_clearIrq (d : Dmc) (cfg : Cfg) : d.clearIrq.start cfg = (d.start cfg).clearIrq := by
  by_cases h : d.bytes = 0
  · rw [start_idle h, start_idle (d := d.clearIrq) h]
    rfl
  · rw [start_playing h, start_playing (d := d.clearIrq) h]

/-! The clock (R289; D6, D28). -/

theorem clock_counts (h : d.timer ≠ 0) : (d.clock cfg).timer.toNat + 1 = d.timer.toNat ∧
    d.clock cfg = { d with timer := (d.clock cfg).timer } := by
  rw [clock_count h]
  exact ⟨toNat_sub_one_add_one h, rfl⟩

theorem clock_reloads (h : d.timer = 0) : cfg.dmcRate.toList[d.rateIdx.toNat]? = some (d.clock cfg).timer := by
  rw [clock_zero h]
  simp [Operand.dmcReload]

/-- Without a bit the output unit rests. -/
theorem clock_rests (h : d.timer = 0) (hb : d.bits = 0) : d.clock cfg = { d with timer := (d.clock cfg).timer } := by
  rw [clock_zero h, consumeBit_zero hb]

theorem clock_consumes (h : d.timer = 0) (hb : d.bits ≠ 0) : d.clock cfg = { d with
    timer := Operand.dmcReload cfg d.rateIdx, out := deltaLevel (d.shift.getLsbD 0) d.out, shift := d.shift >>> 1,
    bits := d.bits - 1 } := by
  rw [clock_zero h, consumeBit_some hb]

/-- The delta bit is the parity of the shift buffer (R289). -/
theorem deltaLevel_lowBit_toNat (shift : Byte) (out : BitVec 7) : (deltaLevel (shift.getLsbD 0) out).toNat =
    if shift.toNat % 2 = 1 then min (out.toNat + 2) 127 else out.toNat - 2 := by
  have hbit : shift.getLsbD 0 = decide (shift.toNat % 2 = 1) := Nat.testBit_zero _
  simp only [deltaLevel_toNat, hbit, decide_eq_true_eq]

/-! A byte's delivery (R294, R295; D27): the sample goes on, loops, or ends. -/

/-- The byte at hand is the last one exactly if one byte remains. -/
theorem takeByte_bytes_eq_zero_iff (d : Dmc) (cfg : Cfg) (b : Byte) :
    (d.takeByte cfg b).bytes = 0 ↔ d.bytes.toNat = 1 :=
  calc d.bytes - 1 = 0
    _ ↔ d.bytes = 1 := sub_eq_zero
    _ ↔ d.bytes.toNat = 1 := BitVec.toNat_inj.symm

theorem loadSampleByte_continues (h : d.bytes.toNat ≠ 1) : d.loadSampleByte cfg b = d.takeByte cfg b :=
  if_neg (mt (d.takeByte_bytes_eq_zero_iff cfg b).mp h)

theorem loadSampleByte_last (h : d.bytes.toNat = 1) : d.loadSampleByte cfg b = (d.takeByte cfg b).endOfSample cfg :=
  if_pos ((d.takeByte_bytes_eq_zero_iff cfg b).mpr h)

theorem loadSampleByte_loops (h : d.bytes.toNat = 1) (hl : d.loop = true) :
    d.loadSampleByte cfg b = (d.takeByte cfg b).loadSample cfg :=
  (loadSampleByte_last h).trans (if_pos hl)

theorem loadSampleByte_ends (h : d.bytes.toNat = 1) (hl : d.loop = false) :
    d.loadSampleByte cfg b = { d.takeByte cfg b with irq := d.irq || d.irqEnable, active := false } :=
  (loadSampleByte_last h).trans (if_neg (Bool.eq_false_iff.mp hl))

/-- A delivery changes no field but these. -/
theorem loadSampleByte_frame (d : Dmc) (cfg : Cfg) (b : Byte) : d.loadSampleByte cfg b = { d with
    shift := b, bits := 8, curAddr := (d.loadSampleByte cfg b).curAddr, bytes := (d.loadSampleByte cfg b).bytes,
    irq := (d.loadSampleByte cfg b).irq, active := (d.loadSampleByte cfg b).active } := by
  by_cases h : d.bytes.toNat = 1
  · by_cases hl : d.loop = true
    · rw [loadSampleByte_loops h hl]
      rfl
    · rw [loadSampleByte_ends h (Bool.eq_false_iff.mpr hl)]
      rfl
  · rw [loadSampleByte_continues h]
    rfl

/-- A delivery leaves the control registers, the timer and the level. -/
theorem loadSampleByte_keeps (d : Dmc) (cfg : Cfg) (b : Byte) :
    (d.loadSampleByte cfg b).irqEnable = d.irqEnable ∧ (d.loadSampleByte cfg b).loop = d.loop ∧
      (d.loadSampleByte cfg b).rateIdx = d.rateIdx ∧ (d.loadSampleByte cfg b).timer = d.timer ∧
      (d.loadSampleByte cfg b).out = d.out ∧ (d.loadSampleByte cfg b).addrByte = d.addrByte ∧
      (d.loadSampleByte cfg b).lenByte = d.lenByte := by
  rw [loadSampleByte_frame]
  exact ⟨rfl, rfl, rfl, rfl, rfl, rfl, rfl⟩

/-- A delivery fills the shift buffer, and a full one requests nothing (R292). -/
theorem loadSampleByte_fills (d : Dmc) (cfg : Cfg) (b : Byte) : (d.loadSampleByte cfg b).shift = b ∧
    (d.loadSampleByte cfg b).bits.toNat = 8 ∧ (d.loadSampleByte cfg b).request = none := by
  rw [request_none, loadSampleByte_frame]
  exact ⟨rfl, rfl, by simp⟩

/-- Unless the sample loops, the address advances. -/
theorem loadSampleByte_curAddr (h : d.bytes.toNat ≠ 1 ∨ d.loop = false) :
    (d.loadSampleByte cfg b).curAddr = nextSampleAddr cfg d.curAddr := by
  by_cases h1 : d.bytes.toNat = 1
  · rw [loadSampleByte_ends h1 (h.resolve_left (not_not_intro h1))]
    rfl
  · rw [loadSampleByte_continues h1]
    rfl

end Dmc
end Sys2Proof.Machine

namespace Sys2Proof.Claims
open Sys2Proof.Machine

/-! The obligations. -/

/-- Settles O44, by the two cases of the start; the write of `$4015` clears the interrupt flag, which the start keeps. -/
theorem dmcStartLoadsTheSampleOrDoesNothing : Obligations.DmcStartLoadsTheSampleOrDoesNothing := by
  refine ⟨fun cfg d hc => ⟨fun h => ?_, fun h => Dmc.start_playing (mt eq_zero_iff_toNat.mp h)⟩, fun v s hv => ?_⟩
  · rw [Dmc.start_idle (eq_zero_iff_toNat.mpr h)]
    exact ⟨Operand.sampleAddr_toNat hc _, Operand.sampleLen_toNat hc _, rfl, rfl⟩
  · have henable : Operand.enableDmc v = true := (bitSet_eq v 4).symm.trans hv
    refine ⟨_, rfl, ?_⟩
    rw [State.withResponse_dmc, setEnables_dmc, henable]
    exact Dmc.start_clearIrq s.dmc s.cfg

/-- Settles O45, by the cases of the clock: the timer counts, or reloads without a bit or with one. -/
theorem dmcClockMovesTheLevelWithinItsRange : Obligations.DmcClockMovesTheLevelWithinItsRange := by
  refine fun d cfg => ⟨fun h => Dmc.clock_counts (mt eq_zero_iff_toNat.mp h),
    fun h => Dmc.clock_reloads (eq_zero_iff_toNat.mpr h),
    fun h hb => Dmc.clock_rests (eq_zero_iff_toNat.mpr h) (eq_zero_iff_toNat.mpr hb), fun h hb => ?_⟩
  have hb' : d.bits ≠ 0 := mt eq_zero_iff_toNat.mp hb
  rw [Dmc.clock_consumes (eq_zero_iff_toNat.mpr h) hb']
  exact ⟨Dmc.deltaLevel_lowBit_toNat d.shift d.out, Nat.shiftRight_one _, toNat_sub_one_add_one hb', rfl⟩

/-- Settles O46: the request is pending, so DMA_LOAD delivers the byte; then by the three ends of a delivery. -/
theorem dmaLoadDeliversTheByte : Obligations.DmaLoadDeliversTheByte := by
  intro b s hc hactive hbits hbytes
  have hne : s.dmc.bytes ≠ 0 := mt eq_zero_iff_toNat.mp hbytes
  have hrequest : s.dmc.request.isSome = true :=
    Dmc.request_isSome.mpr ⟨hactive, eq_zero_iff_toNat.mpr hbits, Nat.pos_of_ne_zero hbytes⟩
  obtain ⟨hshift, hfull, hanswered⟩ := s.dmc.loadSampleByte_fills s.cfg b
  refine ⟨_, execDmaLoad_next_iff.mpr ⟨hrequest, rfl⟩, rfl, ⟨fun _ => rfl, rfl⟩, ⟨rfl, rfl, rfl, rfl, rfl, rfl⟩,
    by simp [SameUnitsExcept], hshift, hfull, hanswered, fun h => ?_, fun h => ?_, fun h hl => ?_, fun h hl => ?_,
    s.dmc.loadSampleByte_keeps s.cfg b⟩ <;>
    simp only [State.withResponse_dmc, State.withDmc_dmc]
  · rw [Dmc.loadSampleByte_continues h]
    exact ⟨toNat_sub_one_add_one hne, hactive, rfl⟩
  · rw [Dmc.loadSampleByte_curAddr h]
    exact Dmc.nextSampleAddr_toNat hc s.dmc.curAddr
  · rw [Dmc.loadSampleByte_loops h hl]
    exact ⟨Operand.sampleAddr_toNat hc _, Operand.sampleLen_toNat hc _, hactive, rfl⟩
  · rw [Dmc.loadSampleByte_ends h hl]
    exact ⟨eq_zero_iff_toNat.mp ((s.dmc.takeByte_bytes_eq_zero_iff s.cfg b).mpr h), rfl, rfl⟩

end Sys2Proof.Claims
end

section
/-! PROOFS of the statements about the mixer (46_mixer.md) and the CLOCK that mixes: first when each stage is silent, then the
frame sequencer's state after a CLOCK, then the four obligations. -/
namespace Sys2Proof.Machine
open Sys2Proof.Claims

/-! When a stage is silent (R321, R322). -/

section
variable {cfg : Cfg} (h : cfg.Source)
include h

theorem pulseTable_eq_zero_iff {n : Nat} : pulseTable cfg n = 0 ↔ n = 0 := by
  have hden : (8128 + 100 * n : Rat) ≠ 0 := by positivity
  rw [pulseTable_eq_fraction h, div_eq_zero_iff, or_iff_left hden]
  simp

variable {p1 p2 tri noise : BitVec 4} {dmc : BitVec 7}

theorem tndOut_eq_zero_iff_tndSum : tndOut cfg tri noise dmc = 0 ↔ tndSum cfg tri noise dmc = 0 := by
  have hsum := tndSum_nonneg h tri noise dmc
  have hden : 1 + 100 * tndSum cfg tri noise dmc ≠ 0 := by positivity
  rw [tndOut_eq_fraction h, div_eq_zero_iff, or_iff_left hden]
  simp

/-- A sum of levels over positive weights is 0 for the zero levels alone. -/
theorem tndSum_eq_zero_iff : tndSum cfg tri noise dmc = 0 ↔ tri = 0 ∧ noise = 0 ∧ dmc = 0 := by
  rw [tndSum_eq h, add_eq_zero_iff_of_nonneg (by positivity) (by positivity),
    add_eq_zero_iff_of_nonneg (by positivity) (by positivity)]
  simp [and_assoc, ← BitVec.toNat_inj]

/-- Neither stage is negative, so the mix reaches -1 only where both are silent. -/
theorem mix_eq_neg_one_iff : mix cfg p1 p2 tri noise dmc = -1 ↔ p1 = 0 ∧ p2 = 0 ∧ tri = 0 ∧ noise = 0 ∧ dmc = 0 := by
  have hp := pulseTable_nonneg h (p1.toNat + p2.toNat)
  have ht := tndOut_nonneg h tri noise dmc
  calc mix cfg p1 p2 tri noise dmc = -1
    _ ↔ pulseTable cfg (p1.toNat + p2.toNat) + tndOut cfg tri noise dmc = 0 := by
      rw [mix]
      constructor <;> intro <;> linarith
    _ ↔ p1.toNat + p2.toNat = 0 ∧ tri = 0 ∧ noise = 0 ∧ dmc = 0 := by
      rw [add_eq_zero_iff_of_nonneg hp ht, pulseTable_eq_zero_iff h, tndOut_eq_zero_iff_tndSum h, tndSum_eq_zero_iff h]
    _ ↔ p1 = 0 ∧ p2 = 0 ∧ tri = 0 ∧ noise = 0 ∧ dmc = 0 := by
      rw [Nat.add_eq_zero_iff, ← eq_zero_iff_toNat, ← eq_zero_iff_toNat, and_assoc]

/-- The mix in the levels alone, to evaluate it at given levels. -/
theorem mix_eq_fractions : mix cfg p1 p2 tri noise dmc =
    (9588 / 100 * (p1.toNat + p2.toNat : Nat) / (8128 + 100 * (p1.toNat + p2.toNat : Nat)) +
      15979 / 100 * (tri.toNat / 8227 + noise.toNat / 12241 + dmc.toNat / 22638) /
        (1 + 100 * (tri.toNat / 8227 + noise.toNat / 12241 + dmc.toNat / 22638))) * 2 - 1 := by
  rw [mix, pulseTable_eq_fraction h, tndOut_eq_fraction h, tndSum_eq h]

end

/-! The frame sequencer after a CLOCK (R157, R158). -/

namespace FrameSeq
variable {fs : FrameSeq} {p : Pending} {cfg : Cfg} {c : Nat}

/-- Where no write is due, a clock changes the interrupt flag only. -/
theorem clock_snd_of_not_due (h : ¬ WriteDue fs c) :
    (fs.clock cfg c).2 = { fs with irq := fs.irq || (fs.clock cfg c).1.irqPulse } := by
  rw [clock_not_due fun p hp hc => h ⟨p, hp, hc⟩]

/-- A write that is due is loaded, then the interrupt pulse taken. -/
theorem clock_snd_of_due (hp : fs.pend = some p) (hc : c = p.issue + p.delay) : (fs.clock cfg c).2 =
    { fs.takeEffect p with irq := (fs.takeEffect p).irq || (fs.clock cfg c).1.irqPulse } := by
  rw [clock_snd, applyPending_due hp hc]

end FrameSeq
end Sys2Proof.Machine

namespace Sys2Proof.Claims
open Sys2Proof.Machine

/-! The obligations. -/

/-- Settles O49, by the two stages' fractions, the second's at `tndSum`. -/
theorem mixerStagesAreTheirFractions : Obligations.MixerStagesAreTheirFractions := fun _ hc =>
  ⟨pulseTable_eq_fraction hc, fun tri noise dmc => ⟨_, tndSum_eq hc tri noise dmc, tndOut_eq_fraction hc tri noise dmc⟩⟩

/-- Settles O47, by the range of the mix and the one input at which both stages are silent. -/
theorem mixedSampleStaysInRange : Obligations.MixedSampleStaysInRange := by
  intro cfg p1 p2 tri noise dmc hc
  obtain ⟨hlow, hhigh⟩ := mix_bounds hc p1 p2 tri noise dmc
  exact ⟨hlow, hhigh, mix_eq_neg_one_iff hc⟩

/-- Settles O48: the definition of the mix, its range, and its fractions evaluated at the levels the rule lists. -/
theorem mixIsTheSumOfTheTwoStages : Obligations.MixIsTheSumOfTheTwoStages := by
  intro cfg hc
  refine ⟨fun p1 p2 tri noise dmc => ?_, (mix_eq_neg_one_iff hc).mpr ⟨rfl, rfl, rfl, rfl, rfl⟩, ?_⟩
  · obtain ⟨hlow, hhigh⟩ := mix_bounds hc p1 p2 tri noise dmc
    exact ⟨rfl, hlow, hhigh.le⟩
  · simp only [mix_eq_fractions hc, BitVec.reduceToNat]
    norm_num

/-- Settles O32: CLOCK answers with `State.clock`; its frame sequencer has kept its fields or loaded the due write, and the
rest is what the laws of the whole CLOCK give. -/
theorem clockMixesAndPushesOneSample : Obligations.ClockMixesAndPushesOneSample := by
  intro s
  refine ⟨_, s.clock.mixed, rfl, rfl, rfl, clock_fs s, fun hdue => ?_, fun p hp hc => ?_, rfl, rfl, rfl, clock_rs s,
    clock_rb s, clock_cfg s, clock_queue s, fun a => congrArg (·.read a) (clock_shadow s), clock_busLatch s⟩
  · rw [State.withResponse_fs, clock_fs, FrameSeq.clock_snd_of_not_due hdue]
    exact ⟨rfl, rfl, rfl, rfl, rfl⟩
  · rw [State.withResponse_fs, clock_fs, FrameSeq.clock_snd_of_due hp hc, bitSet_eq, bitSet_eq]
    exact ⟨rfl, rfl, rfl, rfl, rfl⟩

end Sys2Proof.Claims
end

section
/-! PROOFS of the statements about the resampler (47_resampler.md): first the curve, then what a push stores and what its passes
append, then pushes of one value, then the outputs counted since reset, then the six obligations. -/
namespace Sys2Proof.Machine
open Sys2Proof.Claims

/-! The curve (R332). -/

theorem cubic_eq_polynomial (y0 y1 y2 y3 t : Rat) : cubic y0 y1 y2 y3 t = y1 + 1 / 2 * (y2 - y0) * t +
    (y0 - 5 / 2 * y1 + 2 * y2 - 1 / 2 * y3) * t ^ 2 + (1 / 2 * (y3 - y0) + 3 / 2 * (y1 - y2)) * t ^ 3 := by
  rw [cubic]
  ring

/-- Four equal samples give a level curve. -/
theorem cubic_const (c t : Rat) : cubic c c c c t = c := by
  rw [cubic]
  ring

/-- Mathlib's `Int.floor_nonneg`, for the floor that the model computes. -/
theorem ratFloor_nonneg {q : Rat} (h : 0 ≤ q) : 0 ≤ q.floor := (Int.floor_nonneg (a := q)).mpr h

namespace Resampler
variable {rs : Resampler} {cap : Nat} {x c : Rat}

/-- The clamped rate in its three ranges (R335). -/
theorem setRate_step {cfg : Cfg} (h : cfg.Source) (rs : Resampler) (r : Rat) :
    (r < 995 / 1000 → (rs.setRate cfg r).step = cfg.baseStep * (995 / 1000)) ∧
    (995 / 1000 ≤ r → r ≤ 1005 / 1000 → (rs.setRate cfg r).step = cfg.baseStep * r) ∧
    (1005 / 1000 < r → (rs.setRate cfg r).step = cfg.baseStep * (1005 / 1000)) := by
  have hmin : (995 / 1000 : Rat) ≤ 1005 / 1000 := by norm_num
  simp only [setRate, Operand.clampRatio_eq h]
  refine ⟨fun hr => ?_, fun hlo hhi => ?_, fun hr => ?_⟩
  · rw [max_eq_right hr.le, min_eq_left hmin]
  · rw [max_eq_left hlo, min_eq_left hhi]
  · rw [max_eq_left (hmin.trans hr.le), min_eq_right hr.le]

theorem setRate_step_pos {cfg : Cfg} (h : cfg.Source) (hb : 0 < cfg.baseStep) (rs : Resampler) (r : Rat) :
    0 < (rs.setRate cfg r).step := by
  obtain ⟨hlo, -⟩ := Operand.clampRatio_bounds h r
  exact mul_pos hb (by linarith)

/-! What a push stores (R331), and what its passes append (R333, R334). -/

theorem push_sampleStored (h : rs.n ≤ 4) : SampleStored x rs (rs.push cap x) := by
  obtain ⟨hring, hidx, hn, hstep⟩ := push_frame (rs := rs) (cap := cap) (x := x)
  refine ⟨?_, fun k hk => ?_, ?_, ?_, hstep⟩
  · simp [hring, store]
  · have hne : rs.idx.val ≠ k.val := fun h => hk (Fin.ext h.symm)
    simp [hring, store, hne]
  · rw [hidx, Fin.val_add]
    rfl
  · rw [hn, store_n]
    split <;> omega

/-- The first three pushes since reset run no pass. -/
theorem push_of_lt (h : rs.n < 3) : rs.push cap x = rs.store x := push_warm (by rw [store_n]; split <;> omega)

theorem push_of_ge (h : 3 ≤ rs.n) : rs.push cap x = (rs.store x).drain cap :=
  push_drains (by rw [store_n]; split <;> omega)

/-- The interpolation reads the ring and the next slot only. -/
theorem interp_congr {t : Resampler} (hring : rs.ring = t.ring) (hidx : rs.idx = t.idx) (u : Rat) :
    rs.interp u = t.interp u := by
  simp only [interp, tap, hring, hidx]

theorem interp_eq_cubic (rs : Resampler) (u : Rat) :
    rs.interp u = cubic rs.ring[rs.idx] rs.ring[rs.idx + 1] rs.ring[rs.idx + 2] rs.ring[rs.idx + 3] u := by
  simp only [interp, tap, add_zero]

/-- The passes of a push interpolate the ring as the push leaves it. -/
theorem store_interp (rs : Resampler) (cap : Nat) (x u : Rat) : (rs.store x).interp u = (rs.push cap x).interp u := by
  obtain ⟨hring, hidx, -, -⟩ := push_frame (rs := rs) (cap := cap) (x := x)
  exact interp_congr hring.symm hidx.symm u

/-- A push past the warm-up: as many passes as the advanced position has whole steps, each interpolating the ring as stored. -/
theorem push_drained (hn : 3 ≤ rs.n) (hp : 0 ≤ rs.pos) (hs : 0 < rs.step) (hl : rs.out.length ≤ cap) :
    (rs.push cap x).out = rs.out ++
      (passOutputs (rs.push cap x) rs.pos rs.step ((rs.pos + 1) / rs.step).floor.toNat).take (cap - rs.out.length) ∧
    0 ≤ (rs.push cap x).pos ∧ (rs.push cap x).pos < rs.step ∧
    (rs.push cap x).pos = rs.pos + 1 - rs.step * ((rs.pos + 1) / rs.step).floor ∧
    (rs.push cap x).out.length = min cap (rs.out.length + ((rs.pos + 1) / rs.step).floor.toNat) ∧
    rs.out <+: (rs.push cap x).out := by
  have hpos : 0 ≤ rs.pos + 1 := by linarith
  have hfloor : 0 ≤ ((rs.pos + 1) / rs.step).floor := ratFloor_nonneg (div_nonneg hpos hs.le)
  have hcount : ((rs.store x).passCount : Rat) = ((rs.pos + 1) / rs.step).floor := by
    exact_mod_cast Int.toNat_of_nonneg hfloor
  obtain ⟨hsteps, -⟩ := passCount_spec (rs := rs.store x) hs hpos
  obtain ⟨h0, hlt, hsub, hlen, hprefix⟩ := drain_spec (rs := rs.store x) hs hpos hl
  have hout := passes_out (cap := cap) _ (rs.store x) hs hsteps
  simp only [store_interp rs cap x, interp_eq_cubic] at hout
  rw [hcount, mul_comm] at hsub
  rw [← push_of_ge hn] at h0 hlt hsub hlen hprefix
  refine ⟨?_, h0, hlt, hsub, hlen, hprefix⟩
  exact (congrArg out (push_of_ge hn)).trans hout

/-! Pushes of one value (R338). -/

/-- Every sample that the passes append is a value of the interpolation. -/
theorem mem_passes_out {y : Rat} (k : Nat) (rs : Resampler) (h : y ∈ (passes cap k rs).out) :
    y ∈ rs.out ∨ ∃ t, y = rs.interp t := by
  induction k generalizing rs with
  | zero => exact .inl h
  | succ k ih =>
    by_cases hgo : rs.step ≤ rs.pos
    · rw [passes_go hgo] at h
      obtain hmem | hinterp := ih (rs.pass cap) h
      · change y ∈ rs.append cap _ at hmem
        rw [append] at hmem
        split at hmem
        · obtain hold | hnew := List.mem_append.mp hmem
          · exact .inl hold
          · exact .inr ⟨_, List.mem_singleton.mp hnew⟩
        · exact .inl hmem
      · exact .inr hinterp
    · rw [passes_stop (not_le.mp hgo)] at h
      exact .inl h

/-- The ring's written slots hold `c`, the slots are written from 0 on, and `c` is the only output. -/
def HoldsOnly (c : Rat) (rs : Resampler) : Prop :=
  rs.n ≤ 4 ∧ (rs.n < 4 → rs.idx.val = rs.n) ∧ (∀ k : Fin 4, k.val < rs.n → rs.ring[k] = c) ∧ ∀ y ∈ rs.out, y = c

theorem holdsOnly_reset (cfg : Cfg) (c : Rat) : (Resampler.reset cfg).HoldsOnly c :=
  ⟨Nat.zero_le _, fun _ => rfl, nofun, nofun⟩

theorem HoldsOnly.push (h : rs.HoldsOnly c) : (rs.push cap c).HoldsOnly c := by
  obtain ⟨hn, hidx, hring, hout⟩ := h
  obtain ⟨hnew, hold, hidx', hn', -⟩ := push_sampleStored (cap := cap) (x := c) hn
  have hring' : ∀ k : Fin 4, k.val < (rs.push cap c).n → (rs.push cap c).ring[k] = c := fun k hk => by
    by_cases hkidx : k = rs.idx
    · rwa [hkidx]
    · have hne : k.val ≠ rs.idx.val := fun h => hkidx (Fin.ext h)
      rw [hold k hkidx]
      exact hring k (by omega)
  refine ⟨by omega, by omega, hring', fun y hy => ?_⟩
  by_cases h3 : rs.n < 3
  · rw [push_of_lt h3] at hy
    exact hout y hy
  · have hfull : ∀ k : Fin 4, (rs.push cap c).ring[k] = c := fun k => hring' k (by omega)
    rw [push_of_ge (not_lt.mp h3)] at hy
    obtain hmem | ⟨t, rfl⟩ := mem_passes_out _ _ hy
    · exact hout y hmem
    · rw [store_interp rs cap c, interp_eq_cubic, hfull, hfull, hfull, hfull, cubic_const]

theorem HoldsOnly.pushAll_replicate (m : Nat) (h : rs.HoldsOnly c) :
    (pushAll cap (List.replicate m c) rs).HoldsOnly c := by
  induction m generalizing rs with
  | zero => exact h
  | succ m ih => exact ih h.push

/-! The number of outputs (R334, R338). -/

/-- The outputs that `m` pushes at one step give, room aside: none before the fourth push, then one for each whole step. -/
def outputsDue (step : Rat) (m : Nat) : Int := if m < 4 then 0 else ((m : Rat) / step).floor

theorem outputsDue_nonneg {step : Rat} (hs : 0 < step) (m : Nat) : 0 ≤ outputsDue step m := by
  unfold outputsDue
  split
  · exact le_rfl
  · exact ratFloor_nonneg (by positivity)

/-- The resampler after `m` pushes since reset: every due output has taken one step off the position. -/
def AfterPushes (step : Rat) (cap m : Nat) (rs : Resampler) : Prop :=
  rs.n = min m 4 ∧ rs.step = step ∧ 0 ≤ rs.pos ∧ rs.pos = m - step * outputsDue step m ∧
    rs.out.length = min cap (outputsDue step m).toNat

theorem afterPushes_reset (cfg : Cfg) (cap : Nat) : (Resampler.reset cfg).AfterPushes cfg.baseStep cap 0 := by
  simp [AfterPushes, outputsDue, reset]

theorem AfterPushes.push {step : Rat} {m : Nat} (hs : 0 < step) (h : rs.AfterPushes step cap m) (x : Rat) :
    (rs.push cap x).AfterPushes step cap (m + 1) := by
  obtain ⟨hn, rfl, hpos, hposEq, hlen⟩ := h
  obtain ⟨-, -, -, hn', hstep'⟩ := push_sampleStored (rs := rs) (cap := cap) (x := x) (by omega)
  refine ⟨by omega, hstep', ?_⟩
  by_cases h3 : rs.n < 3
  · have hdue : outputsDue rs.step m = 0 := if_pos (by omega)
    have hdue' : outputsDue rs.step (m + 1) = 0 := if_pos (by omega)
    rw [hdue] at hlen hposEq
    rw [push_of_lt h3, hdue', store_pos, store_out]
    exact ⟨by linarith, by rw [hposEq]; push_cast; ring, hlen⟩
  · have hdue' : outputsDue rs.step (m + 1) = (((m + 1 : Nat) : Rat) / rs.step).floor := if_neg (by omega)
    have hadvanced : (rs.pos + 1) / rs.step = ((m + 1 : Nat) : Rat) / rs.step - outputsDue rs.step m := by
      rw [hposEq]
      field_simp
      push_cast
      ring
    have hfloor : ((rs.pos + 1) / rs.step).floor = outputsDue rs.step (m + 1) - outputsDue rs.step m := by
      rw [hadvanced, hdue']
      exact Int.floor_sub_intCast (_ : Rat) _
    have hfloor0 : 0 ≤ ((rs.pos + 1) / rs.step).floor := ratFloor_nonneg (by positivity)
    have hdue0 := outputsDue_nonneg hs m
    obtain ⟨-, hpos', -, hposEq', hlen', -⟩ := push_drained (x := x) (not_lt.mp h3) hpos hs (hlen ▸ min_le_left ..)
    refine ⟨hpos', ?_, by omega⟩
    rw [hposEq', hfloor, hposEq]
    push_cast
    ring

theorem AfterPushes.pushAll {step : Rat} {m : Nat} (hs : 0 < step) (l : List Rat) (h : rs.AfterPushes step cap m) :
    (pushAll cap l rs).AfterPushes step cap (m + l.length) := by
  induction l generalizing rs m with
  | nil => exact h
  | cons x xs ih =>
    rw [List.length_cons, Nat.add_comm xs.length, ← Nat.add_assoc]
    exact ih (h.push hs x)

end Resampler
end Sys2Proof.Machine

namespace Sys2Proof.Claims
open Sys2Proof.Machine

/-! The obligations. -/

/-- Settles O50, by the three ranges of the clamp. -/
theorem setRateClampsTheRatio : Obligations.SetRateClampsTheRatio := by
  intro r s hc
  obtain ⟨hlow, hmid, hhigh⟩ := s.rs.setRate_step hc r
  exact ⟨_, rfl, hlow, hmid, hhigh, fun hb => s.rs.setRate_step_pos hc hb r, rfl, rfl, rfl, rfl, rfl, rfl,
    ⟨fun _ => rfl, rfl⟩, by simp [SameUnitsExcept], rfl, rfl, rfl, rfl, rfl⟩

/-- Settles O51: a pull answers with the outputs and empties them, so that the second finds none. -/
theorem pullReturnsAndClearsTheBatch : Obligations.PullReturnsAndClearsTheBatch := fun _ =>
  ⟨_, _, rfl, rfl, rfl, rfl, rfl, rfl, rfl, rfl, rfl, rfl, ⟨fun _ => rfl, rfl⟩, by simp [SameUnitsExcept],
    rfl, rfl, rfl, rfl, rfl⟩

/-- Settles O53: what is stored does not depend on the passes, of which the first three pushes run none. -/
theorem pushRunsThePassesOfItsPosition : Obligations.PushRunsThePassesOfItsPosition := by
  intro rs cap x hn
  have hstored : SampleStored x rs (rs.push cap x) := Resampler.push_sampleStored hn
  have ⟨_, _, _, _, hstep⟩ := hstored
  refine ⟨hstored, fun h => ?_, fun h hp hs hl => ?_⟩
  · rw [Resampler.push_of_lt h]
    exact ⟨rfl, rfl⟩
  · obtain ⟨hout, hpos, hlt, hposEq, hlen, hprefix⟩ := Resampler.push_drained (x := x) h hp hs hl
    exact ⟨hout, hpos, hstep ▸ hlt, hstep, hposEq, hlen, hprefix⟩

/-- Settles O54: the pushes keep the ring's written slots and the outputs at the one value. -/
theorem constantInputGivesConstantOutput : Obligations.ConstantInputGivesConstantOutput := by
  intro cfg c m _
  obtain ⟨-, -, -, hout⟩ := (Resampler.holdsOnly_reset cfg c).pushAll_replicate (cap := cfg.rsOutCap) m
  exact hout

/-- Settles O55, by induction on the pushes since reset. -/
theorem pushesGiveTheRatioOfOutputs : Obligations.PushesGiveTheRatioOfOutputs := by
  intro cfg l hv
  obtain ⟨-, -, -, -, hlen⟩ := (Resampler.afterPushes_reset cfg cfg.rsOutCap).pushAll hv.baseStep_pos l
  rw [Nat.zero_add, Resampler.outputsDue] at hlen
  refine ⟨fun h => ?_, fun h => ?_⟩
  · rw [if_pos h] at hlen
    exact List.length_eq_zero_iff.mp (by simpa using hlen)
  · rwa [if_neg (not_lt.mpr h)] at hlen

/-- Settles O52: each part is an identity of polynomials in the samples. -/
theorem cubicReproducesParabolas : Obligations.CubicReproducesParabolas := by
  refine ⟨cubic_eq_polynomial, fun y0 y1 y2 y3 => ⟨?_, ?_⟩, fun a b c t => ?_⟩ <;>
    rw [cubic_eq_polynomial] <;> ring

end Sys2Proof.Claims
end

section
/-! PROOFS of the statements about the sample pipeline's ring buffer (48_sample_pipeline.md): first what a read delivers and what
its report counts, then the two obligations. -/
namespace Sys2Proof.Machine

namespace RingBuffer
variable {cap : Nat}

/-- A read delivers the first of the samples buffered, and zeros after them. -/
theorem read_fst (rb : RingBuffer) (hr : rb.rd < cap) (count : Nat) : (rb.read cap count).1 =
    (rb.contents cap).take (min count rb.occ) ++ List.replicate (count - min count rb.occ) 0 :=
  congrArg (· ++ _) (takeMany_contents _ (Nat.min_le_right ..) hr)

theorem read_calls (rb : RingBuffer) (count : Nat) : (rb.read cap count).2.2.calls = rb.calls := by rw [read_frame]

/-- The occupancy is reported on the call that completes the interval (R353; D34). -/
theorem report_fst (rb : RingBuffer) (cfg : Cfg) : (rb.report cfg).1 =
    if rb.calls + 1 = cfg.reportEvery then some ((rb.occ : Rat) / cfg.rbCap) else none := by
  unfold report
  split <;> rfl

theorem report_calls (rb : RingBuffer) (cfg : Cfg) : (rb.report cfg).2.calls =
    if rb.calls + 1 = cfg.reportEvery then 0 else rb.calls + 1 := by
  unfold report
  split <;> rfl

theorem report_occ (rb : RingBuffer) (cfg : Cfg) : (rb.report cfg).2.occ = rb.occ := by rw [report_frame]

end RingBuffer
end Sys2Proof.Machine

namespace Sys2Proof.Claims
open Sys2Proof.Machine

/-! The obligations. -/

/-- Settles O56: the write's room is the count that fits, and it puts that many samples behind those buffered. -/
theorem ringWriteKeepsWhatFits : Obligations.RingWriteKeepsWhatFits := by
  intro samples s hinv
  obtain ⟨hrd, hcalls⟩ := s.rb.write_frame (cap := s.cfg.rbCap) samples
  obtain ⟨hlength, -⟩ :=
    RingBuffer.putAll_frame (cap := s.cfg.rbCap) (samples.take (s.rb.room s.cfg.rbCap samples)) s.rb
  exact ⟨_, rfl, rfl, rfl, RingBuffer.contents_write hinv samples, rfl, hrd, hcalls, hlength, ⟨fun _ => rfl, rfl⟩,
    by simp [SameUnitsExcept], rfl, rfl, rfl, rfl, rfl⟩

/-- Settles O57: the read delivers and removes the oldest samples, and the report leaves them and counts the call. -/
theorem ringReadDeliversThenFills : Obligations.RingReadDeliversThenFills := by
  intro count s ⟨_, _, hrd, _⟩
  obtain ⟨hbuf, hwr⟩ := s.rb.read_report_frame (cap := s.cfg.rbCap) s.cfg count
  refine ⟨_, _, execRbRead_next_iff.mpr ⟨Int.natCast_nonneg count, rfl⟩, rfl, ?_, ?_, RingBuffer.report_occ .., ?_,
    hbuf, hwr, ⟨fun _ => rfl, rfl⟩, by simp [SameUnitsExcept], rfl, rfl, rfl, rfl, rfl⟩
  · rw [State.withResponse_response, Int.toNat_natCast, RingBuffer.read_fst _ hrd, RingBuffer.report_fst,
      RingBuffer.read_calls]
    rfl
  · exact (RingBuffer.contents_report ..).trans (s.rb.contents_read hrd count)
  · exact (RingBuffer.report_calls ..).trans (by rw [RingBuffer.read_calls])

end Sys2Proof.Claims
end

section
/-! PROOFS of the statements about the status register and the CLOCK (49_status_clock_top.md): first which stimuli move the cycle
count and the sample, then the enables of `$4015`, the open-bus reads, and what the frame events leave at the end of a CLOCK, then
the four obligations. -/
namespace Sys2Proof.Machine
open Sys2Proof.Claims

section
variable {s t : State} {i : Instr}

/-! The cycle count and the sample (R23, R24). -/

theorem bus_transaction_keeps_time (hb : i.agent = .bus) (hx : exec i s = .next t) :
    t.cyc = s.cyc ∧ t.sample = s.sample := by
  obtain ⟨u, r, hu, -, -, hcyc, hsample, -⟩ := bus_transaction_answers hb s
  obtain rfl := answer_next_iff.mp (hu ▸ hx)
  exact ⟨hcyc, hsample⟩

/-- A stimulus other than CLOCK and RESET leaves the cycle count and the sample. -/
theorem exec_keeps_time (hx : exec i s = .next t) (hclock : i ≠ .clock) (hreset : i ≠ .reset) :
    t.cyc = s.cyc ∧ t.sample = s.sample := by
  cases i
  case clock => exact absurd rfl hclock
  case reset => exact absurd rfl hreset
  case dmaLoad b =>
    obtain ⟨-, rfl⟩ := execDmaLoad_next_iff.mp hx
    exact ⟨rfl, rfl⟩
  case rbRead count =>
    obtain ⟨-, hr⟩ := execRbRead_next_iff.mp hx
    obtain rfl := answer_next_iff.mp hr
    exact ⟨rfl, rfl⟩
  case dmaReq | sample | irq | setRate | rsPull | rbWrite =>
    obtain rfl := answer_next_iff.mp hx
    exact ⟨rfl, rfl⟩
  all_goals exact bus_transaction_keeps_time rfl hx

end

/-! The enables of `$4015` (R371 to R373; D18). -/

theorem setEnables_sameUnitsExcept (s : State) (v : Byte) :
    SameUnitsExcept [.p1, .p2, .tri, .noi, .dmc] s (s.setEnables v) := by
  simp [SameUnitsExcept]

/-- The DMC's part of the write: its interrupt flag cleared, then started, left playing, or stopped. -/
theorem Dmc.setEnabled_switched {cfg : Cfg} (hc : cfg.Source) (d : Dmc) (e : Bool) :
    DmcSwitched e d (d.clearIrq.setEnabled cfg e) := by
  cases e with
  | true =>
    by_cases h : d.bytes = 0
    · have hstart : d.clearIrq.setEnabled cfg true = { d.clearIrq.loadSample cfg with active := true } := start_idle h
      rw [hstart]
      exact ⟨rfl, fun _ _ => ⟨Operand.sampleAddr_toNat hc _, Operand.sampleLen_toNat hc _, rfl⟩, fun _ hne => absurd h hne,
        nofun, rfl, rfl, rfl, rfl, rfl, rfl, rfl, rfl, rfl⟩
    · have hstart : d.clearIrq.setEnabled cfg true = d.clearIrq := start_playing h
      rw [hstart]
      exact ⟨rfl, fun _ h0 => absurd h0 h, fun _ _ => ⟨rfl, rfl, rfl⟩, nofun, rfl, rfl, rfl, rfl, rfl, rfl, rfl, rfl, rfl⟩
  | false =>
    exact ⟨rfl, nofun, nofun, fun _ => ⟨rfl, rfl, rfl⟩, rfl, rfl, rfl, rfl, rfl, rfl, rfl, rfl, rfl⟩

/-! The open-bus reads (R88, R376; D20). -/

theorem openBusByte_eq (s : State) (offset : Nat) : s.openBusByte offset =
    if s.cfg.openBusMode = .perOffset then s.shadow.read (0x4000 + offset) else s.busLatch := by
  cases h : s.cfg.openBusMode with
  | perOffset => rw [openBusByte_perOffset h, if_pos rfl, busAddress]
  | singleLatch => rw [openBusByte_singleLatch h, if_neg nofun]

/-- The stimuli of the list are the open-bus reads of their offsets. -/
theorem exec_of_mem_openBusReads : ∀ e ∈ openBusReads, ∀ s, exec e.1 s = openBusRead e.2 s := by
  simp only [openBusReads, List.forall_mem_cons, List.not_mem_nil, false_implies, implies_true, and_true]
  and_intros
  all_goals exact fun _ => rfl

/-! What the frame events leave at the end of a CLOCK (R380, R381): the timers after them write no field they write. -/

/-- A length counter that the half-frame alone clocks (R218; D16). -/
theorem clockLength_of_half (half halt : Bool) (n : BitVec 8) :
    (if half then clockLength halt n else n).toNat = n.toNat - (if half && !halt then 1 else 0) := by
  cases half
  · rfl
  · rw [if_pos rfl, clockLength_toNat]
    cases halt <;> rfl

/-- What the frame events `ev` leave of the pulse channel `p`, its timer and its position aside. -/
def PulseDispatched (cfg : Cfg) (extra : Nat) (ev : FrameEvents) (p q : Pulse) : Prop :=
  (q.env = if ev.quarter then p.env.clock else p.env) ∧
  q.length.toNat = p.length.toNat - (if ev.half && !p.halt then 1 else 0) ∧
  (q.sweep = if ev.half then (p.sweep.clock cfg extra p.period).2 else p.sweep) ∧
  (q.period = if ev.half then (p.sweep.clock cfg extra p.period).1.getD p.period else p.period) ∧
  q.enabled = p.enabled ∧ q.duty = p.duty ∧ q.halt = p.halt

/-- What they leave of the noise channel, its timer and its shift register aside. -/
def NoiseDispatched (ev : FrameEvents) (m n : Noise) : Prop :=
  (n.env = if ev.quarter then m.env.clock else m.env) ∧
  n.length.toNat = m.length.toNat - (if ev.half && !m.halt then 1 else 0) ∧
  n.enabled = m.enabled ∧ n.mode = m.mode ∧ n.periodIdx = m.periodIdx ∧ n.halt = m.halt

/-- What they leave of the triangle, its timer, its position and its linear counter aside. -/
def TriangleDispatched (ev : FrameEvents) (t u : Triangle) : Prop :=
  u.length.toNat = t.length.toNat - (if ev.half && !t.control then 1 else 0) ∧
  u.enabled = t.enabled ∧ u.period = t.period ∧ u.control = t.control ∧ u.linReloadVal = t.linReloadVal

theorem Pulse.frameEvents_dispatched (p : Pulse) (cfg : Cfg) (extra : Nat) (ev : FrameEvents) :
    PulseDispatched cfg extra ev p (if ev.half then (if ev.quarter then p.clockEnvelope else p).halfFrame cfg extra
      else if ev.quarter then p.clockEnvelope else p) := by
  obtain ⟨quarter, half, -⟩ := ev
  have hlength := clockLength_of_half half p.halt p.length
  cases quarter <;> cases half <;> exact ⟨rfl, hlength, rfl, rfl, rfl, rfl, rfl⟩

theorem Noise.frameEvents_dispatched (n : Noise) (ev : FrameEvents) :
    NoiseDispatched ev n (if ev.half then (if ev.quarter then n.clockEnvelope else n).clockLength
      else if ev.quarter then n.clockEnvelope else n) := by
  obtain ⟨quarter, half, -⟩ := ev
  have hlength := clockLength_of_half half n.halt n.length
  cases quarter <;> cases half <;> exact ⟨rfl, hlength, rfl, rfl, rfl, rfl⟩

theorem Triangle.frameEvents_dispatched (t : Triangle) (ev : FrameEvents) :
    TriangleDispatched ev t (if ev.half then (if ev.quarter then t.clockLinearCounter else t).clockLength
      else if ev.quarter then t.clockLinearCounter else t) := by
  obtain ⟨quarter, half, -⟩ := ev
  have hlength := clockLength_of_half half t.control t.length
  rw [t.clockLinearCounter_frame]
  cases quarter <;> cases half <;> exact ⟨hlength, rfl, rfl, rfl, rfl⟩

section
variable (s : State)

theorem clockFrame_pulse_dispatched (id : PulseId) :
    PulseDispatched s.cfg (Config.sweepExtra id) (eventsOf s) (s.pulse id) (s.clockFrame.pulse id) := by
  cases id with
  | one =>
    rw [pulse_one, pulse_one, clockFrame_p1, frameEvents_p1]
    exact s.p1.frameEvents_dispatched ..
  | two =>
    rw [pulse_two, pulse_two, clockFrame_p2, frameEvents_p2]
    exact s.p2.frameEvents_dispatched ..

theorem clock_pulse_dispatched (id : PulseId) :
    PulseDispatched s.cfg (Config.sweepExtra id) (eventsOf s) (s.pulse id) (s.clock.pulse id) := by
  have hframe := clockFrame_pulse_dispatched s id
  rw [clock_pulse]
  split
  · rw [Pulse.clockTimer_frame]
    exact hframe
  · exact hframe

theorem clock_noi_dispatched : NoiseDispatched (eventsOf s) s.noi s.clock.noi := by
  have hframe : NoiseDispatched (eventsOf s) s.noi s.clockFrame.noi := by
    rw [clockFrame_noi, frameEvents_noi]
    exact s.noi.frameEvents_dispatched _
  rw [clock_noi]
  split
  · rw [Noise.clockTimer_frame]
    exact hframe
  · exact hframe

theorem clock_tri_dispatched : TriangleDispatched (eventsOf s) s.tri s.clock.tri := by
  rw [clock_tri, Triangle.clockTimer_frame, clockFrame_tri, frameEvents_tri]
  exact s.tri.frameEvents_dispatched _

end
end Sys2Proof.Machine

namespace Sys2Proof.Claims
open Sys2Proof.Machine

/-! The obligations. -/

/-- Settles O12: CLOCK counts and mixes, RESET returns both fields to their reset values, and every other stimulus keeps them. -/
theorem onlyClockAdvancesTimeAndSample : Obligations.OnlyClockAdvancesTimeAndSample := by
  intro i s t hx
  refine ⟨?_, ?_, exec_keeps_time hx⟩
  · rintro rfl
    obtain rfl := answer_next_iff.mp hx
    exact ⟨rfl, nofun⟩
  · rintro rfl
    obtain rfl := answer_next_iff.mp hx
    exact ⟨rfl, rfl⟩

/-- Settles O23: the write latches its byte and switches each channel by its bit. -/
theorem statusWriteSwitchesTheChannels : Obligations.StatusWriteSwitchesTheChannels := by
  intro v s hc hw
  refine .of_answer hw rfl (setEnables_shadow ..) rfl (setEnables_samePath (s.latchWrite 0x15 v) v)
    (setEnables_sameUnitsExcept (s.latchWrite 0x15 v) v) ?_
  simp only [bitSet_eq]
  refine ⟨⟨rfl, rfl⟩, ⟨rfl, rfl⟩, ⟨rfl, rfl⟩, ⟨rfl, rfl⟩, Dmc.setEnabled_switched hc s.dmc _, ?_⟩
  and_intros <;> rfl

/-- Settles O25: each read of the list answers with the open-bus byte of its offset, from the state as it is. -/
theorem openBusReadsChangeNothing : Obligations.OpenBusReadsChangeNothing := by
  intro e he s
  rw [← openBusByte_eq]
  exact .of_answer (exec_of_mem_openBusReads e he s)

/-- Settles O33, channel by channel: what the frame events leave, the timers keep. -/
theorem clockDispatchesTheFrameEvents : Obligations.ClockDispatchesTheFrameEvents := by
  intro s t hx
  obtain rfl := answer_next_iff.mp hx
  obtain ⟨henv1, hlen1, hsweep1, hper1, hen1, hduty1, hhalt1⟩ := clock_pulse_dispatched s .one
  obtain ⟨henv2, hlen2, hsweep2, hper2, hen2, hduty2, hhalt2⟩ := clock_pulse_dispatched s .two
  obtain ⟨henvN, hlenN, henN, hmodeN, hidxN, hhaltN⟩ := clock_noi_dispatched s
  obtain ⟨hlenT, henT, hperT, hctrlT, hvalT⟩ := clock_tri_dispatched s
  obtain ⟨hlinear, hreload⟩ := clock_tri_linear s
  rw [apply_ite Triangle.linear] at hlinear
  rw [apply_ite Triangle.linReload] at hreload
  exact ⟨henv1, henv2, henvN, hlinear, hreload, hlen1, hlen2, hlenT, hlenN, hsweep1, hsweep2, hper1, hper2,
    hen1, hduty1, hhalt1, hen2, hduty2, hhalt2, henT, hperT, hctrlT, hvalT, henN, hmodeN, hidxN, hhaltN⟩

end Sys2Proof.Claims
end

section
/-! PROOFS of the statements about the exceptions (60_exceptions.md), about reset and about the write that waits
(70_reset_and_hazards.md): first how a stimulus ends, then that two runs apart in the pending write alone agree, then the silent
block after RESET, then the four obligations. -/
namespace Sys2Proof.Machine
open Sys2Proof.Claims

/-! How a stimulus ends (R400, R401): by an answer where the contract is kept, else by the violation. -/

theorem execDmaLoad_eq_of_no_request {b : Byte} {s : State} (h : s.dmc.request = none) :
    execDmaLoad b s = contractViolation .cvDmaLoadNoRequest := by
  rw [execDmaLoad, h]

theorem exec_answers_or_violates (i : Instr) (s : State) :
    (contractKept i s = true ∧ ∃ u r, exec i s = answer u r) ∨
      (contractKept i s = false ∧ ∃ f, exec i s = contractViolation f) := by
  have hbus : i.agent = .bus → ∃ u r, exec i s = answer u r := fun hb => by
    obtain ⟨u, r, hu, -⟩ := bus_transaction_answers hb s
    exact ⟨u, r, hu⟩
  cases i
  case dmaLoad b =>
    cases hr : s.dmc.request with
    | none => exact .inr ⟨by rw [contractKept, hr]; rfl, _, execDmaLoad_eq_of_no_request hr⟩
    | some a =>
      refine .inl ⟨by rw [contractKept, hr]; rfl, s.withDmc (s.dmc.loadSampleByte s.cfg b), .nothing, ?_⟩
      rw [exec, execDmaLoad, hr]
  case rbRead count =>
    by_cases hneg : count < 0
    · exact .inr ⟨decide_eq_false (not_le.mpr hneg), _, if_pos hneg⟩
    · exact .inl ⟨decide_eq_true (not_lt.mp hneg), _, _, if_neg hneg⟩
  case clock | reset | dmaReq | sample | irq | setRate | rsPull | rbWrite => exact .inl ⟨rfl, _, _, rfl⟩
  all_goals exact .inl ⟨rfl, hbus rfl⟩

/-! Two runs apart in the pending write (R156, R440). -/

/-- Where neither is due, a clock does with one pending write what it does with another, and keeps it. -/
theorem FrameSeq.clock_of_pend {fs : FrameSeq} {p : Option Pending} {c : Nat} (cfg : Cfg) (hs : ¬ WriteDue fs c)
    (hp : ¬ WriteDue { fs with pend := p } c) :
    { fs with pend := p }.clock cfg c = ((fs.clock cfg c).1, { (fs.clock cfg c).2 with pend := p }) := by
  rw [clock_not_due fun q hq hc => hs ⟨q, hq, hc⟩, clock_not_due fun q hq hc => hp ⟨q, hq, hc⟩]
  rfl

section
variable {s t : State}

theorem clocks_pend_none (h : s.fs.pend = none) (n : Nat) : (s.clocks n).fs.pend = none := by
  induction n with
  | zero => exact h
  | succ n ih => rw [clocks_succ, clock_fs, FrameSeq.clock_pend, FrameSeq.applyPending_none ih, ih]

theorem fs_eq_of_sameButPending (h : SameButPending s t) : t.fs = { s.fs with pend := t.fs.pend } := by
  obtain ⟨-, -, -, -, hmode, hinhibit, hirq, hbase, -⟩ := h
  change t.fs = ⟨s.fs.mode, s.fs.inhibit, s.fs.irq, s.fs.base, t.fs.pend⟩
  rw [← hmode, ← hinhibit, ← hirq, ← hbase]

/-- A CLOCK in which neither state's write is due keeps two states apart in the pending write alone: the frame events are the
same, so every unit is, and with the five outputs the mixed sample. -/
theorem sameButPending_clock (h : SameButPending s t) (hs : ¬ WriteDue s.fs s.cyc) (ht : ¬ WriteDue t.fs t.cyc) :
    SameButPending s.clock t.clock := by
  have hfs := fs_eq_of_sameButPending h
  obtain ⟨hcfg, hqueue, hcyc, -, -, -, -, -, hp1, hp2, htri, hnoi, hdmc, hrs, hrb⟩ := h
  have hclock : t.fs.clock s.cfg s.cyc =
      ((s.fs.clock s.cfg s.cyc).1, { (s.fs.clock s.cfg s.cyc).2 with pend := t.fs.pend }) := by
    rw [hcyc, hfs] at ht
    rw [hfs]
    exact FrameSeq.clock_of_pend s.cfg hs ht
  have htimers : ∀ b, t.timerRuns b = s.timerRuns b := fun b => by
    simp only [State.timerRuns, State.apuTick, hcfg, hcyc]
  have hp1' : t.clock.p1 = s.clock.p1 := by
    simp only [clock_p1, clockFrame_p1, frameEvents_p1, htimers, hclock, hcfg, hcyc, hp1]
  have hp2' : t.clock.p2 = s.clock.p2 := by
    simp only [clock_p2, clockFrame_p2, frameEvents_p2, htimers, hclock, hcfg, hcyc, hp2]
  have htri' : t.clock.tri = s.clock.tri := by
    simp only [clock_tri, clockFrame_tri, frameEvents_tri, hclock, hcfg, hcyc, htri]
  have hnoi' : t.clock.noi = s.clock.noi := by
    simp only [clock_noi, clockFrame_noi, frameEvents_noi, htimers, hclock, hcfg, hcyc, hnoi]
  have hdmc' : t.clock.dmc = s.clock.dmc := by
    simp only [clock_dmc, htimers, hcfg, hdmc]
  have hmixed : t.clock.mixed = s.clock.mixed := by
    simp only [State.mixed, clock_cfg, hcfg, hp1', hp2', htri', hnoi', hdmc']
  simp only [SameButPending, clock_cfg, clock_queue, clock_cyc, clock_sample, clock_fs, clock_rs, clock_rb, hcfg, hqueue,
    hcyc, hclock, hmixed, hrs, hrb, true_and, and_true]
  exact ⟨hp1', hp2', htri', hnoi', hdmc'⟩

/-- CLOCKs up to a pending write's own leave what they leave without it. -/
theorem sameButPending_clocks {p : Pending} (h : SameButPending s t) (hs : s.fs.pend = none) (ht : t.fs.pend = some p)
    (n : Nat) (hn : t.cyc + n ≤ p.issue + p.delay) : SameButPending (s.clocks n) (t.clocks n) := by
  induction n with
  | zero => exact h
  | succ n ih =>
    rw [clocks_succ, clocks_succ]
    refine sameButPending_clock (ih (by omega)) ?_ ?_
    · rw [WriteDue, clocks_pend_none hs]
      rintro ⟨q, ⟨⟩, -⟩
    · rw [WriteDue, clocks_pend_waits ht n (by omega), clocks_cyc]
      rintro ⟨q, ⟨⟩, hc⟩
      omega

end

/-! The silent block after RESET (R38, R377, R430). -/

theorem resetOf_pulse (cfg : Cfg) (id : PulseId) : (State.resetOf cfg).pulse id = Pulse.reset := by
  cases id <;> rfl

theorem resetOf_statusByte (cfg : Cfg) : (State.resetOf cfg).statusByte = 0 := by
  simp [State.statusByte, State.resetOf, Dmc.reset, FrameSeq.reset, Noise.reset, Triangle.reset, Pulse.reset, lengthActive]

/-- The five silent levels mix to -1, whatever the mixer's literals. -/
theorem mix_silent (cfg : Cfg) : mix cfg 0 0 0 0 0 = -1 := by
  have hsum : tndSum cfg 0 0 0 = 0 := by simp [tndSum]
  have hpulse : pulseTable cfg ((0 : BitVec 4).toNat + (0 : BitVec 4).toNat) = 0 := if_pos rfl
  rw [mix, hpulse, tndOut, if_pos hsum]
  norm_num

/-- A clock of the DMC without a bit to consume leaves its level. -/
theorem Dmc.clock_out_of_no_bit {d : Dmc} {cfg : Cfg} (hb : d.bits = 0) : (d.clock cfg).out = d.out := by
  by_cases ht : d.timer = 0
  · rw [clock_rests ht hb]
  · rw [clock_count ht]

theorem Triangle.output_disabled {t : Triangle} (h : t.enabled = false) (cfg : Cfg) : t.output cfg = 0 := by
  rw [Triangle.output, h]
  rfl

/-- A CLOCK enables no channel, and moves the DMC's level only by a bit that it holds. -/
theorem clock_mixed_of_silent {s : State} (hpulse : ∀ id, (s.pulse id).enabled = false) (htri : s.tri.enabled = false)
    (hnoi : s.noi.enabled = false) (hbits : s.dmc.bits = 0) (hout : s.dmc.out = 0) : s.clock.mixed = -1 := by
  have hp : ∀ id, (s.clock.pulse id).output s.clock.cfg = 0 := fun id => by
    obtain ⟨-, -, -, -, henabled, -⟩ := clock_pulse_dispatched s id
    exact Pulse.output_silent (.inl (henabled.trans (hpulse id)))
  have ht : s.clock.tri.output s.clock.cfg = 0 := by
    obtain ⟨-, henabled, -⟩ := clock_tri_dispatched s
    exact Triangle.output_disabled (henabled.trans htri) _
  have hn : s.clock.noi.output = 0 := by
    obtain ⟨-, -, henabled, -⟩ := clock_noi_dispatched s
    exact Noise.output_silent (.inl (henabled.trans hnoi))
  have hd : s.clock.dmc.output = 0 := by
    rw [clock_dmc]
    split
    · rw [Dmc.output, Dmc.clock_out_of_no_bit hbits, hout]
    · exact hout
  rw [State.mixed, ← pulse_one, ← pulse_two, hp, hp, ht, hn, hd, mix_silent]

end Sys2Proof.Machine

namespace Sys2Proof.Claims
open Sys2Proof.Machine

/-! The obligations. -/

/-- Settles O11: a stimulus answers or violates its contract, and neither is a refusal. -/
theorem faultsExactlyOnABrokenContract : Obligations.FaultsExactlyOnABrokenContract := by
  refine ⟨fun i s => ?_, fun b s h => ?_, fun n s h => if_pos h⟩
  · obtain ⟨hkept, u, r, hx⟩ | ⟨hbroken, f, hx⟩ := exec_answers_or_violates i s
    · rw [hx, hkept]
      exact ⟨⟨nofun, nofun⟩, nofun⟩
    · rw [hx, hbroken]
      exact ⟨⟨fun _ => rfl, fun _ => ⟨f, rfl⟩⟩, nofun⟩
  · refine execDmaLoad_eq_of_no_request (Dmc.request_none.mpr fun ⟨hactive, hbits, hbytes⟩ => ?_)
    obtain h | h | h := h
    · exact Bool.false_ne_true (h.symm.trans hactive)
    · exact h hbits
    · exact absurd (congrArg BitVec.toNat h) hbytes.ne'

/-- Settles O30: up to the CLOCK in which the write is due, no CLOCK reads it. -/
theorem frameWriteInvisibleBeforeItsEffect : Obligations.FrameWriteInvisibleBeforeItsEffect := by
  intro v s t k hcfg hpend hx hk
  obtain rfl := answer_next_iff.mp ((execW4017_eq hcfg v).symm.trans hx)
  have hstart : SameButPending s (((s.latchWrite 0x17 v).withFs
      { s.fs with pend := some ⟨v, s.cyc, if s.cyc % 2 = 1 then 3 else 4⟩ }).withResponse .nothing) := by
    and_intros <;> rfl
  exact sameButPending_clocks hstart hpend rfl k (Nat.add_le_add_left hk _)

/-- Settles O59: each unit's reset values are the listed ones. -/
theorem resetReturnsEveryFieldToItsResetValue : Obligations.ResetReturnsEveryFieldToItsResetValue := by
  intro s
  have hring : ∀ k : Fin 4, (Resampler.reset s.cfg).ring[k] = 0 := fun k => by simp [Resampler.reset]
  exact ⟨_, rfl, rfl, rfl, rfl, fun _ => rfl, rfl, rfl, rfl, rfl, resetOf_pulse s.cfg, rfl, rfl, rfl, hring,
    rfl, rfl, rfl, rfl, rfl, rfl, rfl, rfl, rfl, rfl⟩

/-- Settles O60: RESET leaves every channel disabled and the DMC without a bit, so that the CLOCK mixes silence, in its first
push, and the status byte has no bit set. -/
theorem firstSampleAfterResetIsMinusOne : Obligations.FirstSampleAfterResetIsMinusOne := by
  intro s t u v ht hu hv
  obtain rfl := answer_next_iff.mp ht
  obtain rfl := answer_next_iff.mp hu
  obtain rfl := answer_next_iff.mp hv
  have hmixed := clock_mixed_of_silent (s := ((State.resetOf s.cfg).withQueue s.queue).withResponse .nothing)
    (fun id => congrArg Pulse.enabled (resetOf_pulse s.cfg id)) rfl rfl rfl rfl
  refine ⟨?_, ?_, ?_, rfl, congrArg Response.byte (resetOf_statusByte s.cfg)⟩
  · rw [State.withResponse_sample, clock_sample, hmixed]
  all_goals rw [State.withResponse_rs, clock_rs, Resampler.push_of_lt (Nat.zero_lt_succ 2)]
  · rfl
  · exact zero_add 1

end Sys2Proof.Claims
end
